-- ==== Sys2Proof/Word.lean ====
section
/-! DEFINITION. Bytes, the numbered things of the part (lanes, slots, items, stations), and fixed-size tables. -/

namespace Sys2Proof

/-- One byte of a frame (R172). -/
abbrev Byte := BitVec 8

/-- A lane port number, 0–15 (R167). -/
abbrev Lane := Fin 16

/-- The index of a tab slot (R21); it is not seen at any port. -/
abbrev Slot := Fin 128

/-- An item number, 0–511 (R1). -/
abbrev ItemNo := Fin 512

/-- A station number, 0–7 (R85). -/
abbrev StationNo := Fin 8

/-- An item group, 0–7 (R5). -/
abbrev GroupNo := Fin 8

/-- A tax class, 0–3 (R4). -/
abbrev TaxClass := Fin 4

/-- The index of a share record, 0–383 (R153); it is not seen at any port. -/
abbrev ShareNo := Fin 384

/-- The fixed-size table whose entry `i` is `f i`. -/
def tableOf {n : Nat} {α : Type} (f : Fin n → α) : Vector α n :=
  ⟨⟨(List.finRange n).map f⟩, by simp⟩

theorem get_eq_getElem {n : Nat} {α : Type} (v : Vector α n) (i : Fin n) : v.get i = v[i.val] := rfl

@[simp] theorem tableOf_get {n : Nat} {α : Type} (f : Fin n → α) (i : Fin n) :
    (tableOf f).get i = f i := by
  rw [get_eq_getElem]
  simp [tableOf]

/-- Two tables with the same entries are the same table. -/
theorem table_ext {n : Nat} {α : Type} {v w : Vector α n} (h : ∀ i, v.get i = w.get i) : v = w := by
  apply Vector.ext
  intro i hi
  exact h ⟨i, hi⟩

@[simp] theorem get_set_self {n : Nat} {α : Type} (v : Vector α n) (i : Fin n) (x : α) :
    (v.set i x).get i = x := by
  rw [get_eq_getElem]
  simp

theorem get_set_ne {n : Nat} {α : Type} (v : Vector α n) {i j : Fin n} (x : α) (h : j ≠ i) :
    (v.set i x).get j = v.get j := by
  rw [get_eq_getElem, get_eq_getElem]
  exact Vector.getElem_set_ne _ _ (fun e => h (Fin.ext e.symm))

@[simp] theorem replicate_get {n : Nat} {α : Type} (x : α) (i : Fin n) :
    (Vector.replicate n x).get i = x := by
  rw [get_eq_getElem]
  simp

end Sys2Proof
end

