-- ==== Sys2Proof/Config.lean ====
section
/-! DEFINITION. The capacities and limits of the part (00_scope.md, Capacities), and the one free value: how many bytes a row of
the office that does not carry them stands for. The spec leaves no value of a computation open. -/

namespace Sys2Proof.Config

/-- Highest tab number (R25). -/
def maxTabNumber : Nat := 9999
/-- Most lines on a tab, voided lines included (R21, R34). -/
def maxLines : Nat := 64
/-- Highest price and unit price (R1, R28). -/
def maxPrice : Nat := 99999
/-- Highest count and reserved quantity of an item (R1, R2). -/
def maxCount : Nat := 9999
/-- Highest running base of a tab (R30). -/
def maxBase : Nat := 50000000
/-- Highest tax rate and service rate, in basis points (R4, R47). -/
def maxRate : Nat := 2500
/-- Highest guest PIN (R50). -/
def maxPin : Nat := 999999
/-- Wrong tries at which a tab is locked out (R50). -/
def lockoutTries : Nat := 3
/-- Most followers of a tab (R45). -/
def maxFollowers : Nat := 4
/-- Live tickets the pool holds (R65). -/
def poolSize : Nat := 256
/-- Tickets a station queue holds (R85). -/
def queueSize : Nat := 64
/-- Lines on one ticket (R71). -/
def ticketLines : Nat := 8
/-- Tickets on a set-aside stack (R96). -/
def stackSize : Nat := 2
/-- Tickets in a recall list (R98). -/
def recallSize : Nat := 8
/-- Highest ticket number (R66). -/
def maxTicketNumber : Nat := 65535
/-- One more than the highest fire sequence, stamp and clock value (R67, R184). -/
def wrap32 : Nat := 4294967296
/-- Entries the approval queue holds (R116). -/
def approvalSize : Nat := 16
/-- Highest approval number (R118). -/
def maxApprovalNumber : Nat := 255
/-- Results a lane's result list holds (R129). -/
def resultSize : Nat := 4
/-- Highest reason code (R42, R54, R157). -/
def maxReason : Nat := 15
/-- Most shares of a split (R134). -/
def maxShares : Nat := 24
/-- Tenders of one share (R153). -/
def maxTenders : Nat := 4
/-- Highest card tip (R155). -/
def maxTip : Nat := 99999
/-- What cash or a voucher may exceed the remaining by (R155). -/
def maxOver : Nat := 999999
/-- Requests waiting for the split engine (R149). -/
def engineWaiting : Nat := 3
/-- Seconds of a fresh settle claim (R161). -/
def claimSeconds : Nat := 300
/-- Lowest and highest late threshold that is not off (R104). -/
def minLate : Nat := 60
def maxLate : Nat := 3600
/-- Frames in a transmit list at which a received frame is not taken (R167). -/
def transmitGuard : Nat := 6
/-- Ticks after its start byte at which a lane frame is discarded (R173). -/
def frameTicks : Nat := 2
/-- Lines in one TAB_VIEW page (R32). -/
def tabPage : Nat := 6
/-- Tickets in one STATION_VIEW page (R103), and the highest start position. -/
def stationPage : Nat := 2
def maxStationPosition : Nat := 74
/-- Entries in one APPROVAL_LIST page (R119), and the highest start position. -/
def approvalPage : Nat := 8
def maxApprovalPosition : Nat := 15
/-- Items in one AVAILABILITY page (R18). -/
def availabilityPage : Nat := 100

/-- A free value, a fresh one for each draw: the bytes clocked at the office with a row that does not carry their number (R175;
entry 25). -/
opaque transfers : Nat → Nat

end Sys2Proof.Config
end

