-- ==== Sys2Proof/Syntax.lean ====
section
/-! DEFINITION. The commands of the part: one constructor of `Instr` per row of spec/opcode_table.json. A request command is
a received request frame: its port, its tag and its body, read as the fields of its kind or unreadable (R176). Numbers are
as the frame carries them: the owning block judges their ranges (R176). -/

namespace Sys2Proof

/-- A port a request comes from: one of the sixteen lane ports, or the office port (R167, R168). -/
inductive Port where
  | lane (l : Lane)
  | office
deriving DecidableEq, Repr

/-- The 51 request kinds of the code table (R178). -/
inductive Kind where
  | openTab | tabView | addLine | voidLine | compLine | overridePrice | follow | unfollow | setService
  | unlock | lock | setPin | clearLockout | fire
  | rail | take | bump | resume | recallTicket | holdLow | pause | openStation | stationView | setStation
  | passSupervisor | reclaim | approvalList | approve | deny | withdraw | results
  | split | shareView | tender | undoTender | dropSplit | adopt | takeClosed
  | loadItem | withdrawItem | loadModifier | setTaxRate | setGroupPriority | setCount | availability
  | setPort | events | setMask | setClock | status | reset
deriving DecidableEq, Repr

/-- The body of a received request: the fields of its kind, or the bytes of a body that cannot be read as them (R176). -/
inductive Body (α : Type) where
  | fields (f : α)
  | unread (bytes : List Byte)
deriving DecidableEq, Repr

/-- What stands after the tag of a frame that is no request: its kind byte and the bytes of its body (R172). -/
structure KindAndBody where
  kind : Nat
  body : List Byte
deriving DecidableEq, Repr

/-- Where a start byte arrives: on a lane, or at the office after the bytes it has discarded since its last frame (R173, R175). -/
inductive StartByte where
  | lane (l : Lane)
  | office (skipped : Nat)
deriving DecidableEq, Repr

/-- OPEN_TAB (R26). -/
structure OpenTabFields where
  service : Nat
  pin : Option Nat
deriving DecidableEq, Repr

/-- A tab and the first line or share asked for: TAB_VIEW (R32), SHARE_VIEW (R154). -/
structure TabPageFields where
  tab : Nat
  first : Nat
deriving DecidableEq, Repr

/-- ADD_LINE (R34). -/
structure AddLineFields where
  tab : Nat
  item : Nat
  quantity : Option Nat
  seat : Option Nat
  mods : List Nat
deriving DecidableEq, Repr

/-- VOID_LINE (R36). -/
structure VoidLineFields where
  tab : Nat
  line : Nat
deriving DecidableEq, Repr

/-- COMP_LINE (R42). -/
structure CompLineFields where
  tab : Nat
  line : Nat
  reason : Nat
deriving DecidableEq, Repr

/-- OVERRIDE_PRICE (R43). -/
structure OverridePriceFields where
  tab : Nat
  line : Nat
  price : Option Nat
  reason : Nat
deriving DecidableEq, Repr

/-- SET_SERVICE (R47). -/
structure SetServiceFields where
  tab : Nat
  rate : Nat
deriving DecidableEq, Repr

/-- UNLOCK (R52) and SET_PIN (R57): a tab number and a PIN that may be absent. -/
structure TabPinFields where
  tab : Nat
  pin : Option Nat
deriving DecidableEq, Repr

/-- CLEAR_LOCKOUT (R54). -/
structure ClearLockoutFields where
  tab : Nat
  reason : Nat
deriving DecidableEq, Repr

/-- FIRE (R68). -/
structure FireFields where
  tab : Nat
  groups : Option (List Nat)
deriving DecidableEq, Repr

/-- SET_STATION (R104); `state` is the code of the enumeration table. -/
structure SetStationFields where
  station : Nat
  state : Nat
  alternate : Option Nat
  threshold : Nat
deriving DecidableEq, Repr

/-- SPLIT (R147) with its share definition (R134); `mode` is the code of the enumeration table. -/
structure SplitFields where
  tab : Nat
  mode : Nat
  count : Option Nat
  map : Option (List (Nat × Nat))
deriving DecidableEq, Repr

/-- TENDER (R155); `kind` is the code of the enumeration table. -/
structure TenderFields where
  tab : Nat
  share : Nat
  kind : Nat
  amount : Option Nat
  tip : Option Nat
deriving DecidableEq, Repr

/-- UNDO_TENDER (R157). -/
structure UndoTenderFields where
  tab : Nat
  share : Nat
  reason : Nat
deriving DecidableEq, Repr

/-- LOAD_ITEM (R6); `mode` is the code of the enumeration table. -/
structure LoadItemFields where
  item : Nat
  price : Nat
  taxClass : Nat
  station : Nat
  group : Nat
  mode : Nat
  count : Nat
deriving DecidableEq, Repr

/-- LOAD_MODIFIER (R3). -/
structure LoadModifierFields where
  code : Nat
  delta : Int
deriving DecidableEq, Repr

/-- SET_TAX_RATE (R4). -/
structure SetTaxRateFields where
  taxClass : Nat
  rate : Nat
deriving DecidableEq, Repr

/-- SET_GROUP_PRIORITY (R5); `priority` is the code of the enumeration table. -/
structure SetGroupPriorityFields where
  group : Nat
  priority : Nat
deriving DecidableEq, Repr

/-- SET_COUNT (R9). -/
structure SetCountFields where
  item : Nat
  count : Nat
deriving DecidableEq, Repr

/-- SET_PORT (R169); `role` is the code of the enumeration table. -/
structure SetPortFields where
  port : Nat
  role : Nat
  station : Option Nat
  supervisor : Bool
  notices : Bool
deriving DecidableEq, Repr

/-- The commands, in the order of spec/opcode_table.json. -/
inductive Instr where
  | powerOn
  | resetPin
  | reset (port : Port) (tag : Nat) (body : Body Unit)
  | secondTick
  /-- The live ticket whose late countdown has reached 0. -/
  | lateExpiry (ticket : Nat)
  /-- The tab whose claim countdown has reached 0. -/
  | claimLapse (tab : Nat)
  | frameTimeout (l : Lane)
  /-- The length byte that ended the frame. -/
  | lengthError (port : Port) (length : Nat)
  /-- The bytes from the length to the last body byte, and the CRC received after them. -/
  | crcMismatch (port : Port) (bytes : List Byte) (crc : BitVec 16)
  | csDeasserted
  | badTagOrKind (port : Port) (tag : Nat) (kind : KindAndBody)
  | unknownKind (port : Port) (tag : Nat) (kind : KindAndBody)
  | transmitListFull (l : Lane)
  | officeRequestOverrun
  | frameSent (l : Lane)
  | replyClockedOut
  | openTab (port : Port) (tag : Nat) (body : Body OpenTabFields)
  | tabView (port : Port) (tag : Nat) (body : Body TabPageFields)
  | addLine (port : Port) (tag : Nat) (body : Body AddLineFields)
  | voidLine (port : Port) (tag : Nat) (body : Body VoidLineFields)
  | compLine (port : Port) (tag : Nat) (body : Body CompLineFields)
  | overridePrice (port : Port) (tag : Nat) (body : Body OverridePriceFields)
  | follow (port : Port) (tag : Nat) (body : Body Nat)
  | unfollow (port : Port) (tag : Nat) (body : Body Nat)
  | setService (port : Port) (tag : Nat) (body : Body SetServiceFields)
  | unlock (port : Port) (tag : Nat) (body : Body TabPinFields)
  | lock (port : Port) (tag : Nat) (body : Body Nat)
  | setPin (port : Port) (tag : Nat) (body : Body TabPinFields)
  | clearLockout (port : Port) (tag : Nat) (body : Body ClearLockoutFields)
  | fire (port : Port) (tag : Nat) (body : Body FireFields)
  | rail (port : Port) (tag : Nat) (body : Body Unit)
  | take (port : Port) (tag : Nat) (body : Body Unit)
  | bump (port : Port) (tag : Nat) (body : Body Unit)
  | resume (port : Port) (tag : Nat) (body : Body Unit)
  /-- The ticket number. -/
  | recallTicket (port : Port) (tag : Nat) (body : Body Nat)
  /-- The code of off or on. -/
  | holdLow (port : Port) (tag : Nat) (body : Body Nat)
  /-- From a lane port no field; from the office port the station number (R102). -/
  | pause (port : Port) (tag : Nat) (body : Body (Option Nat))
  | openStation (port : Port) (tag : Nat) (body : Body (Option Nat))
  /-- The start position. -/
  | stationView (port : Port) (tag : Nat) (body : Body Nat)
  | setStation (port : Port) (tag : Nat) (body : Body SetStationFields)
  /-- The port number of the target. -/
  | passSupervisor (port : Port) (tag : Nat) (body : Body Nat)
  | reclaim (port : Port) (tag : Nat) (body : Body Unit)
  /-- The start position. -/
  | approvalList (port : Port) (tag : Nat) (body : Body Nat)
  /-- The approval number. -/
  | approve (port : Port) (tag : Nat) (body : Body Nat)
  | deny (port : Port) (tag : Nat) (body : Body Nat)
  | withdraw (port : Port) (tag : Nat) (body : Body Nat)
  | results (port : Port) (tag : Nat) (body : Body Unit)
  | split (port : Port) (tag : Nat) (body : Body SplitFields)
  | splitBegin
  | splitCompletion
  | shareView (port : Port) (tag : Nat) (body : Body TabPageFields)
  | tender (port : Port) (tag : Nat) (body : Body TenderFields)
  | undoTender (port : Port) (tag : Nat) (body : Body UndoTenderFields)
  | dropSplit (port : Port) (tag : Nat) (body : Body Nat)
  | adopt (port : Port) (tag : Nat) (body : Body Nat)
  | takeClosed (port : Port) (tag : Nat) (body : Body Unit)
  | loadItem (port : Port) (tag : Nat) (body : Body LoadItemFields)
  /-- The item number. -/
  | withdrawItem (port : Port) (tag : Nat) (body : Body Nat)
  | loadModifier (port : Port) (tag : Nat) (body : Body LoadModifierFields)
  | setTaxRate (port : Port) (tag : Nat) (body : Body SetTaxRateFields)
  | setGroupPriority (port : Port) (tag : Nat) (body : Body SetGroupPriorityFields)
  | setCount (port : Port) (tag : Nat) (body : Body SetCountFields)
  /-- The first item number of the page. -/
  | availability (port : Port) (tag : Nat) (body : Body Nat)
  | setPort (port : Port) (tag : Nat) (body : Body SetPortFields)
  | events (port : Port) (tag : Nat) (body : Body Unit)
  /-- The mask, bit n for event code n. -/
  | setMask (port : Port) (tag : Nat) (body : Body Nat)
  /-- The new clock value. -/
  | setClock (port : Port) (tag : Nat) (body : Body Nat)
  | status (port : Port) (tag : Nat) (body : Body Unit)
  | startByteReceived (port : StartByte)
  | resetPinAsserted
deriving DecidableEq, Repr

end Sys2Proof
end

