-- ==== Sys2Proof/Machine/State.lean ====
section
/-! DEFINITION. The state of the part as plain data, block by block, and its value after a device reset. -/

namespace Sys2Proof.Machine

/-- No step of the part stops it: the spec gives every command a next state in every state, so there is no fault
(safe: nothing can be concluded from a stop). -/
inductive Fault where
deriving DecidableEq, Repr

/-- The reasons a command has no meaning. -/
inductive Refusal where
  /-- Raised by `exec` alone, for a command whose meaning is not written yet (safe: a claim about it cannot be proved). -/
  | notModelled (mnemonic : String)
deriving DecidableEq, Repr

/-! ### Status codes, events and frames (R172, R178) -/

/-- The status of a reply (R178). -/
inductive Status where
  | ok | clamped | queued | nothing
  | unsupported | busy | badField
  | noTab | noTabSlot | locked | lockedOut | wrongPin | tabSettling | wrongState | lineLimit | noItem | soldOut
  | tabLimit | followersFull
  | alreadyPending | approvalsFull | notSupervisor | noTicket | noStation | ticketsFull | queueFull | stationBusy
  | ticketsStranded | stackFull
  | linesHeld | approvalPending | sharesFull | engineBusy | notOwner | tenderLimit | overDue
deriving DecidableEq, Repr

/-- The twelve event kinds (R178). -/
inductive EventKind where
  | tabChanged | ticketLate | railChanged | ticketKilled | availabilityChanged | approvalWaiting | approvalDone
  | tokenGiven | tokenTaken | claimLapsed | closeWaiting | frameError
deriving DecidableEq, Repr

/-- A set of event kinds, bit n for event code n, as EVENTS, SET_MASK and notices carry it (R178, R179). -/
abbrev EventSet := BitVec 12

/-- One encoded field of a reply body, by its type in the table of field types (R178). -/
inductive Field where
  /-- Tab number, ticket number, item number. -/
  | ident (n : Nat)
  /-- Line number, quantity, seat, modifier code, tax class, station, group, port number, share index, share count, reason
  code, approval number, page position, token holder. -/
  | small (n : Nat)
  | amount (n : Nat)
  | rate (n : Nat)
  /-- Count, reserved. -/
  | count (n : Nat)
  /-- An available figure; `none` is the marker UNLIMITED. -/
  | available (n : Option Nat)
  /-- Stamp, clock value. -/
  | stamp (n : Nat)
  /-- Countdown, late threshold. -/
  | seconds (n : Nat)
  /-- A number of things, a queue length, a free count. -/
  | number (n : Nat)
  | events (e : EventSet)
  | flag (b : Bool)
  /-- The code of an enumeration. -/
  | code (n : Nat)
  /-- The presence byte of an optional field. -/
  | presence (b : Bool)
  /-- The count byte of a list. -/
  | listCount (n : Nat)
deriving DecidableEq, Repr

/-- The status and body of a reply. -/
structure Reply where
  status : Status
  body : List Field
deriving DecidableEq, Repr

/-- A frame the part sends (R172): a reply, with the tag of its request and its kind code, or a notice (R180). -/
inductive Frame where
  | reply (tag : Nat) (kind : Nat) (status : Status) (body : List Field)
  | notice (pending : EventSet)
deriving DecidableEq, Repr

/-! ### Catalogue store (R1 to R5) -/

inductive ItemState where
  | absent | listed | withdrawn
deriving DecidableEq, Repr

inductive CountMode where
  | limited | unlimited
deriving DecidableEq, Repr

/-- An item record (R1). -/
structure Item where
  state : ItemState
  price : Nat
  taxClass : TaxClass
  station : StationNo
  group : GroupNo
  mode : CountMode
  count : Nat
  reserved : Nat
deriving DecidableEq, Repr

inductive Priority where
  | high | low
deriving DecidableEq, Repr

/-! ### Tab table (R21, R27) -/

inductive LineState where
  | entered | fired | served | voided
deriving DecidableEq, Repr

/-- A line record (R27); its line number is its position in the tab's line list, the first line being 1. -/
structure Line where
  item : ItemNo
  quantity : Nat
  seat : Nat
  mods : List Nat
  price : Nat
  taxClass : TaxClass
  station : StationNo
  group : GroupNo
  state : LineState
  comped : Bool
  pending : Option Nat
  ticket : Option Nat
deriving DecidableEq, Repr

inductive TabState where
  | free | opened | settling | closed | exported
deriving DecidableEq, Repr

inductive SplitMode where
  | even | bySeat
deriving DecidableEq, Repr

/-- The tab totals of stage 1 (R138). -/
structure Totals where
  bases : Vector Nat 4
  taxes : Vector Nat 4
  service : Nat
  total : Nat
deriving DecidableEq, Repr

/-- A tab's split reference (R21, R145, R148); the computation is complete when the totals are present. -/
structure SplitRef where
  mode : SplitMode
  count : Nat
  refs : List ShareNo
  totals : Option Totals
deriving DecidableEq, Repr

/-- A tab record (R21). -/
structure Tab where
  number : Nat
  state : TabState
  opener : Option Lane
  openedAt : Nat
  closedAt : Option Nat
  service : Nat
  pin : Option Nat
  wrongTries : Nat
  /-- A set: no duplicates, its order means nothing (R50). -/
  unlocked : List Lane
  followers : List Lane
  lines : List Line
  base : Nat
  live : Nat
  owner : Option Lane
  claim : Option Nat
  split : Option SplitRef
deriving DecidableEq, Repr

/-! ### Ticket pool and stations (R62, R85) -/

/-- A ticket record (R62). Its station and its state are the place where it stands: a queue, in-work slot, stack or recall
list of a station record. -/
structure Ticket where
  number : Nat
  tab : Nat
  home : StationNo
  rerouted : Bool
  group : GroupNo
  seq : Nat
  firedAt : Nat
  /-- The late countdown. -/
  late : Option Nat
  lateFlag : Bool
  /-- Line numbers, ascending. -/
  lines : List Nat
deriving DecidableEq, Repr

/-- Where a ticket stands (R63). -/
inductive TicketState where
  | queued | inWork | setAside | done
deriving DecidableEq, Repr

inductive StationState where
  | opened | paused | closed
deriving DecidableEq, Repr

/-- A station record (R85). -/
structure Station where
  state : StationState
  alternate : Option StationNo
  port : Option Lane
  holdLow : Bool
  threshold : Nat
  /-- The QUEUED tickets: a set, ordered when read (R90). -/
  queue : List Ticket
  inWork : Option Ticket
  /-- The SET_ASIDE tickets, top first (R96). -/
  stack : List Ticket
  /-- The DONE tickets, newest first (R98). -/
  recalls : List Ticket
  /-- The last reported rail (R91). -/
  rail : Option Nat × Option Nat
deriving DecidableEq, Repr

/-! ### Approval queue (R115, R129) -/

/-- What an approval entry asks, with the fields its kind uses (R115). -/
inductive Ask where
  | voidFired (line : Nat)
  | comp (line : Nat)
  | price (line : Nat) (newPrice : Nat)
  | pinClear
  | undoTender (share : Nat)
deriving DecidableEq, Repr

/-- An approval entry (R115). -/
structure Entry where
  number : Nat
  ask : Ask
  requester : Lane
  tab : Nat
  reason : Nat
  queuedAt : Nat
deriving DecidableEq, Repr

inductive Verdict where
  | approved | denied | withdrawn | stale
deriving DecidableEq, Repr

/-- A result (R129): the entry's number, what it asked (which gives the kind and the line number or share index), its tab,
the outcome and the decided-at stamp. -/
structure Result where
  number : Nat
  ask : Ask
  tab : Nat
  verdict : Verdict
  decidedAt : Nat
deriving DecidableEq, Repr

/-! ### Split engine and share store (R132, R149, R153) -/

/-- A share definition that has passed its checks (R134). -/
inductive ShareDef where
  | even (n : Nat)
  | bySeat (map : List (Nat × Nat))
deriving DecidableEq, Repr

/-- What the engine reads of one line (R133). -/
structure LineInput where
  amount : Nat
  taxClass : TaxClass
  seat : Nat
deriving DecidableEq, Repr

/-- The inputs of a computation besides its definition (R133). -/
structure SplitInputs where
  lines : List LineInput
  rates : Vector Nat 4
  service : Nat
deriving DecidableEq, Repr

/-- An accepted SPLIT request, as the engine's waiting list holds it (R149). -/
structure SplitJob where
  tab : Nat
  shape : ShareDef
  count : Nat
deriving DecidableEq, Repr

/-- What the engine holds while computing (R132). -/
structure Computation where
  job : SplitJob
  refs : List ShareNo
  inputs : SplitInputs
deriving DecidableEq, Repr

inductive TenderKind where
  | card | cash | voucher
deriving DecidableEq, Repr

/-- A tender record (R153). -/
structure Tender where
  kind : TenderKind
  applied : Nat
  tendered : Nat
  tip : Nat
deriving DecidableEq, Repr

inductive ShareState where
  | due | paid
deriving DecidableEq, Repr

/-- The figures the engine computes for one share (R145). -/
structure ShareFigures where
  lead : Nat
  members : List Nat
  bases : Vector Nat 4
  taxes : Vector Nat 4
  service : Nat
  due : Nat
deriving DecidableEq, Repr

/-- A share record in use after completion (R153). -/
structure Share where
  tab : Nat
  index : Nat
  figures : ShareFigures
  paid : Nat
  tenders : List Tender
  state : ShareState
deriving DecidableEq, Repr

/-- A record of the share store: free, reserved (it holds its tab number and nothing else), or written at completion (R153). -/
inductive ShareRecord where
  | free
  | reserved (tab : Nat)
  | held (share : Share)
deriving DecidableEq, Repr

/-! ### Port interface (R167, R168, R173) -/

inductive Role where
  | off | till | station
deriving DecidableEq, Repr

/-- The receiving condition of a port (R173): hunting, or in a frame, with the ticks since its start byte. -/
inductive Receiver where
  | hunting
  | inFrame (ticks : Nat)
deriving DecidableEq, Repr

/-- A port entry (R167). -/
structure PortEntry where
  role : Role
  bound : Option StationNo
  supervisor : Bool
  notices : Bool
  events : EventSet
  mask : EventSet
  /-- The tag and kind of an accepted SPLIT awaiting its reply. -/
  outstanding : Option (Nat × Kind)
  /-- The transmit list, oldest first; the first frame is the one being sent. -/
  transmit : List Frame
  receiver : Receiver
deriving DecidableEq, Repr

end Sys2Proof.Machine

namespace Sys2Proof.Machine

/-- The whole state of the part, and the queue of commands waiting for it. -/
structure State where
  /-- Item records (R1). -/
  items : Vector Item 512
  /-- Modifier records: absent, or a delta (R3). -/
  modifiers : Vector (Option Int) 64
  /-- Tax-class rates in basis points (R4). -/
  rates : Vector Nat 4
  /-- The group priority table (R5). -/
  priorities : Vector Priority 8
  /-- Tab slots (R21). -/
  tabs : Vector Tab 128
  /-- The tab number counter (R25). -/
  tabCounter : Nat
  /-- Station records (R85), holding all live tickets and the recall lists. -/
  stations : Vector Station 8
  /-- The ticket number counter (R66). -/
  ticketCounter : Nat
  /-- The fire sequence counter (R67). -/
  fireSeq : Nat
  /-- The port that holds the supervisor token (R110). -/
  token : Port
  /-- The approval queue in arrival order (R116). -/
  approvals : List Entry
  /-- The approval number counter (R118). -/
  approvalCounter : Nat
  /-- One result list per lane port, oldest first (R129). -/
  results : Vector (List Result) 16
  /-- The computation in progress, or none while the engine is idle (R132). -/
  computing : Option Computation
  /-- The engine's waiting list in arrival order (R149). -/
  waiting : List SplitJob
  /-- The share store (R153). -/
  shares : Vector ShareRecord 384
  /-- The close queue: numbers of CLOSED tabs in closing order (R166). -/
  closeQueue : List Nat
  /-- The port table (R167). -/
  ports : Vector PortEntry 16
  /-- The office port's event set (R168). -/
  officeEvents : EventSet
  /-- The office port's event mask (R168). -/
  officeMask : EventSet
  /-- The office port's reply slot (R168). -/
  replySlot : Option Frame
  /-- The position in that reply: how many of its bytes have been clocked out, over any number of transactions (R175). -/
  replyPosition : Nat
  /-- The office port's receiving condition (R173). -/
  officeReceiver : Receiver
  /-- The venue clock (R184). -/
  clock : Nat
  /-- Whether the RESET pin is held active (R186). -/
  resetPin : Bool
  /-- How many free values have been drawn (the model's own; entry 25). -/
  draws : Nat
  /-- The commands waiting to be taken, first in first out (the model's own queue). -/
  pending : List Instr
deriving DecidableEq, Repr

/-! ### Reset values -/

/-- An item record after a device reset (R1). -/
def Item.blank : Item :=
  { state := .absent, price := 0, taxClass := 0, station := 0, group := 0, mode := .limited, count := 0, reserved := 0 }

/-- The record a FREE slot holds (R21). DESIGN CHOICE (entry 24), unsafe: the number of a FREE slot, which the spec calls
not held, is 0. -/
def Tab.blank : Tab :=
  { number := 0, state := .free, opener := none, openedAt := 0, closedAt := none, service := 0, pin := none
    wrongTries := 0, unlocked := [], followers := [], lines := [], base := 0, live := 0, owner := none, claim := none
    split := none }

/-- A station record after a device reset (R85). -/
def Station.blank : Station :=
  { state := .closed, alternate := none, port := none, holdLow := false, threshold := 0, queue := [], inWork := none
    stack := [], recalls := [], rail := (none, none) }

/-- A port entry after a device reset (R167, R186). -/
def PortEntry.blank : PortEntry :=
  { role := .off, bound := none, supervisor := false, notices := false, events := 0, mask := BitVec.allOnes 12
    outstanding := none, transmit := [], receiver := .hunting }

/-- The part after a device reset (R186, and the reset values of every chapter). DESIGN CHOICE (entry 24), unsafe: the RESET
pin is inactive; DESIGN CHOICE (entry 1), unsafe: no command waits. -/
def State.reset : State where
  items := Vector.replicate 512 Item.blank
  modifiers := Vector.replicate 64 none
  rates := Vector.replicate 4 0
  priorities := Vector.replicate 8 .high
  tabs := Vector.replicate 128 Tab.blank
  tabCounter := 1
  stations := Vector.replicate 8 Station.blank
  ticketCounter := 1
  fireSeq := 0
  token := .office
  approvals := []
  approvalCounter := 1
  results := Vector.replicate 16 []
  computing := none
  waiting := []
  shares := Vector.replicate 384 .free
  closeQueue := []
  ports := Vector.replicate 16 PortEntry.blank
  officeEvents := 0
  officeMask := BitVec.allOnes 12
  replySlot := none
  replyPosition := 0
  officeReceiver := .hunting
  clock := 0
  resetPin := false
  draws := 0
  pending := []

end Sys2Proof.Machine
end

