-- ==== Sys2Proof/Machine/Operands.lean ====
section
/-! DEFINITION. The codes of the tables of R178 and the reading of request operands: enumeration codes and numbers brought
into the types the state uses. -/

namespace Sys2Proof.Machine

/-- A number read as an index below `n`, or none when it is out of range. -/
def fin? (n k : Nat) : Option (Fin n) :=
  if h : k < n then some ⟨k, h⟩ else none

/-! ### Request kinds (R178) -/

/-- The code of a request kind. -/
def kindCode : Kind → Nat
  | .openTab => 0x01
  | .tabView => 0x02
  | .addLine => 0x03
  | .voidLine => 0x04
  | .compLine => 0x05
  | .overridePrice => 0x06
  | .follow => 0x07
  | .unfollow => 0x08
  | .setService => 0x09
  | .unlock => 0x0A
  | .lock => 0x0B
  | .setPin => 0x0C
  | .clearLockout => 0x0D
  | .fire => 0x10
  | .rail => 0x18
  | .take => 0x19
  | .bump => 0x1A
  | .resume => 0x1B
  | .recallTicket => 0x1C
  | .holdLow => 0x1D
  | .pause => 0x1E
  | .openStation => 0x1F
  | .stationView => 0x20
  | .setStation => 0x21
  | .passSupervisor => 0x28
  | .reclaim => 0x29
  | .approvalList => 0x2A
  | .approve => 0x2B
  | .deny => 0x2C
  | .withdraw => 0x2D
  | .results => 0x2E
  | .split => 0x30
  | .shareView => 0x31
  | .tender => 0x32
  | .undoTender => 0x33
  | .dropSplit => 0x34
  | .adopt => 0x35
  | .takeClosed => 0x36
  | .loadItem => 0x40
  | .withdrawItem => 0x41
  | .loadModifier => 0x42
  | .setTaxRate => 0x43
  | .setGroupPriority => 0x44
  | .setCount => 0x45
  | .availability => 0x46
  | .setPort => 0x50
  | .events => 0x51
  | .setMask => 0x52
  | .setClock => 0x53
  | .status => 0x54
  | .reset => 0x55

/-- Every request kind. -/
def allKinds : List Kind :=
  [.openTab, .tabView, .addLine, .voidLine, .compLine, .overridePrice, .follow, .unfollow,
   .setService, .unlock, .lock, .setPin, .clearLockout, .fire, .rail, .take,
   .bump, .resume, .recallTicket, .holdLow, .pause, .openStation, .stationView, .setStation,
   .passSupervisor, .reclaim, .approvalList, .approve, .deny, .withdraw, .results, .split,
   .shareView, .tender, .undoTender, .dropSplit, .adopt, .takeClosed, .loadItem, .withdrawItem,
   .loadModifier, .setTaxRate, .setGroupPriority, .setCount, .availability, .setPort, .events, .setMask,
   .setClock, .status, .reset]

/-- The request kind of a code, if the code table has it. -/
def kindOfCode (c : Nat) : Option Kind :=
  allKinds.find? (fun k => kindCode k == c)

/-- Which ports may send a request kind: TILL ports, STATION ports (all of them, or those with a bound station), the office
port (R178). -/
structure Senders where
  till : Bool
  station : Bool
  boundStation : Bool
  office : Bool
deriving DecidableEq, Repr

/-- T of the code table. -/
def senderTills : Senders := ⟨true, false, false, false⟩
/-- T S. -/
def senderLanes : Senders := ⟨true, true, false, false⟩
/-- T O. -/
def senderTillsAndOffice : Senders := ⟨true, false, false, true⟩
/-- T S O. -/
def senderEveryone : Senders := ⟨true, true, false, true⟩
/-- S*. -/
def senderBoundStations : Senders := ⟨false, false, true, false⟩
/-- S* O. -/
def senderBoundStationsAndOffice : Senders := ⟨false, false, true, true⟩
/-- O. -/
def senderOfficeOnly : Senders := ⟨false, false, false, true⟩

/-- The ports that may send a request kind (R178). -/
def senders : Kind → Senders
  | .openTab => senderTills
  | .tabView => senderEveryone
  | .addLine => senderTills
  | .voidLine => senderTills
  | .compLine => senderTills
  | .overridePrice => senderTills
  | .follow => senderLanes
  | .unfollow => senderLanes
  | .setService => senderTillsAndOffice
  | .unlock => senderTills
  | .lock => senderTills
  | .setPin => senderTills
  | .clearLockout => senderTills
  | .fire => senderTills
  | .rail => senderBoundStations
  | .take => senderBoundStations
  | .bump => senderBoundStations
  | .resume => senderBoundStations
  | .recallTicket => senderBoundStations
  | .holdLow => senderBoundStations
  | .pause => senderBoundStationsAndOffice
  | .openStation => senderBoundStationsAndOffice
  | .stationView => senderBoundStations
  | .setStation => senderOfficeOnly
  | .passSupervisor => senderTillsAndOffice
  | .reclaim => senderOfficeOnly
  | .approvalList => senderTillsAndOffice
  | .approve => senderTillsAndOffice
  | .deny => senderTillsAndOffice
  | .withdraw => senderLanes
  | .results => senderLanes
  | .split => senderTills
  | .shareView => senderEveryone
  | .tender => senderTills
  | .undoTender => senderTills
  | .dropSplit => senderTills
  | .adopt => senderTills
  | .takeClosed => senderOfficeOnly
  | .loadItem => senderOfficeOnly
  | .withdrawItem => senderOfficeOnly
  | .loadModifier => senderOfficeOnly
  | .setTaxRate => senderOfficeOnly
  | .setGroupPriority => senderOfficeOnly
  | .setCount => senderEveryone
  | .availability => senderEveryone
  | .setPort => senderOfficeOnly
  | .events => senderEveryone
  | .setMask => senderEveryone
  | .setClock => senderOfficeOnly
  | .status => senderOfficeOnly
  | .reset => senderOfficeOnly

/-! ### Status and event codes (R178) -/

/-- The code of a status. -/
def statusCode : Status → Nat
  | .ok => 0x00
  | .clamped => 0x01
  | .queued => 0x02
  | .nothing => 0x03
  | .unsupported => 0x10
  | .busy => 0x11
  | .badField => 0x12
  | .noTab => 0x20
  | .noTabSlot => 0x21
  | .locked => 0x22
  | .lockedOut => 0x23
  | .wrongPin => 0x24
  | .tabSettling => 0x25
  | .wrongState => 0x26
  | .lineLimit => 0x27
  | .noItem => 0x28
  | .soldOut => 0x29
  | .tabLimit => 0x2A
  | .followersFull => 0x2B
  | .alreadyPending => 0x30
  | .approvalsFull => 0x31
  | .notSupervisor => 0x32
  | .noTicket => 0x33
  | .noStation => 0x38
  | .ticketsFull => 0x39
  | .queueFull => 0x3A
  | .stationBusy => 0x3B
  | .ticketsStranded => 0x3C
  | .stackFull => 0x3D
  | .linesHeld => 0x40
  | .approvalPending => 0x41
  | .sharesFull => 0x42
  | .engineBusy => 0x43
  | .notOwner => 0x44
  | .tenderLimit => 0x45
  | .overDue => 0x46

/-- The code of an event kind. -/
def eventCode : EventKind → Nat
  | .tabChanged => 0
  | .ticketLate => 1
  | .railChanged => 2
  | .ticketKilled => 3
  | .availabilityChanged => 4
  | .approvalWaiting => 5
  | .approvalDone => 6
  | .tokenGiven => 7
  | .tokenTaken => 8
  | .claimLapsed => 9
  | .closeWaiting => 10
  | .frameError => 11

/-- The set that holds one event kind (R178: bit n for event code n). -/
def eventBit (k : EventKind) : EventSet := 1#12 <<< eventCode k

/-! ### Enumerations (R178) -/

def roleCode : Role → Nat
  | .off => 0
  | .till => 1
  | .station => 2

/-- The Role a code names; none when the code is outside the table. -/
def roleOfCode : Nat → Option Role
  | 0 => some .off
  | 1 => some .till
  | 2 => some .station
  | _ => none

def itemStateCode : ItemState → Nat
  | .absent => 0
  | .listed => 1
  | .withdrawn => 2

def countModeCode : CountMode → Nat
  | .limited => 0
  | .unlimited => 1

/-- The CountMode a code names; none when the code is outside the table. -/
def countModeOfCode : Nat → Option CountMode
  | 0 => some .limited
  | 1 => some .unlimited
  | _ => none

def priorityCode : Priority → Nat
  | .high => 0
  | .low => 1

/-- The Priority a code names; none when the code is outside the table. -/
def priorityOfCode : Nat → Option Priority
  | 0 => some .high
  | 1 => some .low
  | _ => none

def tabStateCode : TabState → Nat
  | .free => 0
  | .opened => 1
  | .settling => 2
  | .closed => 3
  | .exported => 4

def lineStateCode : LineState → Nat
  | .entered => 0
  | .fired => 1
  | .served => 2
  | .voided => 3

def ticketStateCode : TicketState → Nat
  | .queued => 0
  | .inWork => 1
  | .setAside => 2
  | .done => 3

def stationStateCode : StationState → Nat
  | .opened => 0
  | .paused => 1
  | .closed => 2

/-- The StationState a code names; none when the code is outside the table. -/
def stationStateOfCode : Nat → Option StationState
  | 0 => some .opened
  | 1 => some .paused
  | 2 => some .closed
  | _ => none

def splitModeCode : SplitMode → Nat
  | .even => 0
  | .bySeat => 1

/-- The SplitMode a code names; none when the code is outside the table. -/
def splitModeOfCode : Nat → Option SplitMode
  | 0 => some .even
  | 1 => some .bySeat
  | _ => none

def shareStateCode : ShareState → Nat
  | .due => 0
  | .paid => 1

def tenderKindCode : TenderKind → Nat
  | .card => 0
  | .cash => 1
  | .voucher => 2

/-- The TenderKind a code names; none when the code is outside the table. -/
def tenderKindOfCode : Nat → Option TenderKind
  | 0 => some .card
  | 1 => some .cash
  | 2 => some .voucher
  | _ => none

def verdictCode : Verdict → Nat
  | .approved => 0
  | .denied => 1
  | .withdrawn => 2
  | .stale => 3

/-- The code of an approval kind (R178). -/
def askCode : Ask → Nat
  | .voidFired _ => 0
  | .comp _ => 1
  | .price _ _ => 2
  | .pinClear => 3
  | .undoTender _ => 4

def holdLowCode (b : Bool) : Nat := if b then 1 else 0

/-- Off or on, as HOLD_LOW carries it (R101, R178). -/
def holdLowOfCode : Nat → Option Bool
  | 0 => some false
  | 1 => some true
  | _ => none

/-- The token holder as a byte: a lane port, or 255 for the office port (R178). -/
def holderCode : Port → Nat
  | .lane l => l.val
  | .office => 255

/-- The line an approval entry is about, for the line kinds (R115). -/
def askLine : Ask → Option Nat
  | .voidFired n => some n
  | .comp n => some n
  | .price n _ => some n
  | .pinClear => none
  | .undoTender _ => none

/-- The share an approval entry is about (R115). -/
def askShare : Ask → Option Nat
  | .undoTender n => some n
  | .voidFired _ | .comp _ | .price _ _ | .pinClear => none

/-- The new unit price of a PRICE entry (R115). -/
def askPrice : Ask → Option Nat
  | .price _ p => some p
  | .voidFired _ | .comp _ | .pinClear | .undoTender _ => none

/-- The mode of a share definition (R134). -/
def shapeMode : ShareDef → SplitMode
  | .even _ => .even
  | .bySeat _ => .bySeat

end Sys2Proof.Machine
end

