-- ==== Sys2Proof/Machine/Wire.lean ====
section
/-! DEFINITION. Bytes on the wire: little-endian fields, the CRC and the frame layout (R172, R174, R178). -/

namespace Sys2Proof.Machine

/-- A number as one byte. -/
def u8 (n : Nat) : List Byte := [BitVec.ofNat 8 n]

/-- A number as two bytes, low byte first (R172). -/
def u16 (n : Nat) : List Byte := [BitVec.ofNat 8 n, BitVec.ofNat 8 (n / 256)]

/-- A number as four bytes, low byte first (R172). -/
def u32 (n : Nat) : List Byte :=
  [BitVec.ofNat 8 n, BitVec.ofNat 8 (n / 256), BitVec.ofNat 8 (n / 65536), BitVec.ofNat 8 (n / 16777216)]

/-- The bytes of a set of event kinds, bit n for event code n. -/
def eventBytes (e : EventSet) : List Byte := u16 e.toNat

/-- The bytes of one encoded field (R178). -/
def fieldBytes : Field → List Byte
  | .ident n => u16 n
  | .small n => u8 n
  | .amount n => u32 n
  | .rate n => u16 n
  | .count n => u16 n
  | .available none => u16 0xFFFF
  | .available (some n) => u16 n
  | .stamp n => u32 n
  | .seconds n => u16 n
  | .number n => u16 n
  | .events e => eventBytes e
  | .flag b => u8 b.toNat
  | .code n => u8 n
  | .presence b => u8 b.toNat
  | .listCount n => u8 n

/-- The bytes of a body, its fields in order. -/
def bodyBytes (body : List Field) : List Byte := body.flatMap fieldBytes

/-! ### CRC (R174) -/

/-- One shift of the CRC register: left by one, and combined with 0x1021 when the bit shifted out is 1. -/
def crcShift (r : BitVec 16) : BitVec 16 :=
  if r.getLsbD 15 then (r <<< 1) ^^^ 0x1021#16 else r <<< 1

/-- One byte taken into the register: exclusive-or with the high byte, then eight shifts. -/
def crcByte (r : BitVec 16) (b : Byte) : BitVec 16 :=
  crcShift (crcShift (crcShift (crcShift (crcShift (crcShift (crcShift (crcShift
    (r ^^^ (b.zeroExtend 16 <<< 8)))))))))

/-- The CRC of the bytes from the length through the last body byte; the register starts at 0xFFFF. -/
def crc16 (bytes : List Byte) : BitVec 16 := bytes.foldl crcByte 0xFFFF#16

/-- The CRC as sent: high byte first. -/
def crcBytes (c : BitVec 16) : List Byte := [BitVec.ofNat 8 (c.toNat / 256), BitVec.ofNat 8 c.toNat]

/-! ### Frames (R172) -/

/-- The start byte of every frame. -/
def startByte : Byte := 0xC3#8

/-- The lowest and highest length a frame may have. -/
def lengthOk (n : Nat) : Bool := 2 ≤ n && n ≤ 250

/-- A whole frame around what stands between its length byte and its CRC: the tag, the kind and the rest. -/
def wrapFrame (content : List Byte) : List Byte :=
  let counted := BitVec.ofNat 8 content.length :: content
  startByte :: (counted ++ crcBytes (crc16 counted))

/-- The code of a notice frame (R172). -/
def noticeKind : Nat := 0xFE

/-- The code of a reply to a request of the given code (R172). -/
def replyKind (code : Nat) : Nat := code + 0x80

/-- The bytes of a frame the part sends: a reply carries its request's tag, the reply kind, the status and the body; a notice
has tag 0 and the pending set as its body (R172, R180). -/
def frameBytes : Frame → List Byte
  | .reply tag kind status body => wrapFrame (u8 tag ++ u8 kind ++ u8 (statusCode status) ++ bodyBytes body)
  | .notice pending => wrapFrame (u8 0 ++ u8 noticeKind ++ eventBytes pending)

end Sys2Proof.Machine
end

