-- ==== Sys2Proof/WellFormed.lean ====
section
/-! DEFINITION. The commands that can reach the part: tags and fields within the widths of their encodings (R172, R178), and the
operands of the frame rows such as their events have. Ranges narrower than an encoding are not checked here: the owning block
judges those (R176). -/

namespace Sys2Proof

/-- A number that fits one byte. -/
def fits8 (n : Nat) : Bool := n < 256

/-- A number that fits two bytes. -/
def fits16 (n : Nat) : Bool := n < 65536

/-- A number that fits four bytes. -/
def fits32 (n : Nat) : Bool := n < 4294967296

/-- A number that fits two bytes as two's complement. -/
def fitsSigned16 (n : Int) : Bool := -32768 ≤ n && n < 32768

/-- A tag of a request: 1–255 (R172). -/
def tagOk (tag : Nat) : Bool := 1 ≤ tag && tag < 256

/-- The bytes of an optional field whose value takes `n` bytes. -/
def optionalSize {α : Type} (n : Nat) (o : Option α) : Nat := if o.isSome then n + 1 else 1

/-- Most bytes of a request body (R172). -/
def maxBody : Nat := 248

def OpenTabFields.fits (f : OpenTabFields) : Bool := fits16 f.service && f.pin.all fits32
def TabPageFields.fits (f : TabPageFields) : Bool := fits16 f.tab && fits8 f.first
def AddLineFields.fits (f : AddLineFields) : Bool :=
  fits16 f.tab && fits16 f.item && f.quantity.all fits8 && f.seat.all fits8 && f.mods.all fits8
    && 5 + optionalSize 1 f.quantity + optionalSize 1 f.seat + f.mods.length ≤ maxBody
def VoidLineFields.fits (f : VoidLineFields) : Bool := fits16 f.tab && fits8 f.line
def CompLineFields.fits (f : CompLineFields) : Bool := fits16 f.tab && fits8 f.line && fits8 f.reason
def OverridePriceFields.fits (f : OverridePriceFields) : Bool :=
  fits16 f.tab && fits8 f.line && f.price.all fits32 && fits8 f.reason
def SetServiceFields.fits (f : SetServiceFields) : Bool := fits16 f.tab && fits16 f.rate
def TabPinFields.fits (f : TabPinFields) : Bool := fits16 f.tab && f.pin.all fits32
def ClearLockoutFields.fits (f : ClearLockoutFields) : Bool := fits16 f.tab && fits8 f.reason
def FireFields.fits (f : FireFields) : Bool :=
  fits16 f.tab && f.groups.all (fun gs => gs.all fits8 && 4 + gs.length ≤ maxBody)
def SetStationFields.fits (f : SetStationFields) : Bool :=
  fits8 f.station && fits8 f.state && f.alternate.all fits8 && fits16 f.threshold
def SplitFields.fits (f : SplitFields) : Bool :=
  fits16 f.tab && fits8 f.mode && f.count.all fits8
    && f.map.all (fun m => m.all (fun q => fits8 q.1 && fits8 q.2) && 7 + 2 * m.length ≤ maxBody)
def TenderFields.fits (f : TenderFields) : Bool :=
  fits16 f.tab && fits8 f.share && fits8 f.kind && f.amount.all fits32 && f.tip.all fits32
def UndoTenderFields.fits (f : UndoTenderFields) : Bool := fits16 f.tab && fits8 f.share && fits8 f.reason
def LoadItemFields.fits (f : LoadItemFields) : Bool :=
  fits16 f.item && fits32 f.price && fits8 f.taxClass && fits8 f.station && fits8 f.group && fits8 f.mode && fits16 f.count
def LoadModifierFields.fits (f : LoadModifierFields) : Bool := fits8 f.code && fitsSigned16 f.delta
def SetTaxRateFields.fits (f : SetTaxRateFields) : Bool := fits8 f.taxClass && fits16 f.rate
def SetGroupPriorityFields.fits (f : SetGroupPriorityFields) : Bool := fits8 f.group && fits8 f.priority
def SetCountFields.fits (f : SetCountFields) : Bool := fits16 f.item && fits16 f.count
def SetPortFields.fits (f : SetPortFields) : Bool := fits8 f.port && fits8 f.role && f.station.all fits8

/-- The body of PAUSE and OPEN as its port sends it: no field from a lane, a station number from the office (R102). -/
def workingFits (p : Port) (f : Option Nat) : Bool :=
  match p with
  | .lane _ => f.isNone
  | .office => f.elim false fits8

/-- A request frame with its tag in range and its fields within their widths, or a body that a frame holds. -/
def requestOk {α : Type} (tag : Nat) (body : Body α) (fits : α → Bool) : Bool :=
  tagOk tag &&
    match body with
    | .fields f => fits f
    | .unread bytes => bytes.length ≤ maxBody

/-- Any body of no field. -/
def noField (_ : Unit) : Bool := true

/-- A command that can reach the part. -/
def Instr.wellFormed : Instr → Bool
  | .powerOn | .resetPin | .secondTick | .csDeasserted | .officeRequestOverrun | .replyClockedOut | .splitBegin
  | .splitCompletion | .resetPinAsserted => true
  | .lateExpiry n => fits16 n
  | .claimLapse n => fits16 n
  | .frameTimeout _ | .transmitListFull _ | .frameSent _ | .startByteReceived _ => true
  | .lengthError _ n => fits8 n && !(2 ≤ n && n ≤ 250)
  | .crcMismatch _ bytes _ => 3 ≤ bytes.length && bytes.length ≤ 251
  | .badTagOrKind _ tag k => fits8 tag && fits8 k.kind && (tag = 0 || 128 ≤ k.kind) && k.body.length ≤ maxBody
  | .unknownKind _ tag k => tagOk tag && k.kind < 128 && k.body.length ≤ maxBody
  | .openTab _ tag body => requestOk tag body OpenTabFields.fits
  | .tabView _ tag body => requestOk tag body TabPageFields.fits
  | .addLine _ tag body => requestOk tag body AddLineFields.fits
  | .voidLine _ tag body => requestOk tag body VoidLineFields.fits
  | .compLine _ tag body => requestOk tag body CompLineFields.fits
  | .overridePrice _ tag body => requestOk tag body OverridePriceFields.fits
  | .follow _ tag body => requestOk tag body fits16
  | .unfollow _ tag body => requestOk tag body fits16
  | .setService _ tag body => requestOk tag body SetServiceFields.fits
  | .unlock _ tag body => requestOk tag body TabPinFields.fits
  | .lock _ tag body => requestOk tag body fits16
  | .setPin _ tag body => requestOk tag body TabPinFields.fits
  | .clearLockout _ tag body => requestOk tag body ClearLockoutFields.fits
  | .fire _ tag body => requestOk tag body FireFields.fits
  | .rail _ tag body => requestOk tag body noField
  | .take _ tag body => requestOk tag body noField
  | .bump _ tag body => requestOk tag body noField
  | .resume _ tag body => requestOk tag body noField
  | .recallTicket _ tag body => requestOk tag body fits16
  | .holdLow _ tag body => requestOk tag body fits8
  | .pause p tag body => requestOk tag body (workingFits p)
  | .openStation p tag body => requestOk tag body (workingFits p)
  | .stationView _ tag body => requestOk tag body fits8
  | .setStation _ tag body => requestOk tag body SetStationFields.fits
  | .passSupervisor _ tag body => requestOk tag body fits8
  | .reclaim _ tag body => requestOk tag body noField
  | .approvalList _ tag body => requestOk tag body fits8
  | .approve _ tag body => requestOk tag body fits8
  | .deny _ tag body => requestOk tag body fits8
  | .withdraw _ tag body => requestOk tag body fits8
  | .results _ tag body => requestOk tag body noField
  | .split _ tag body => requestOk tag body SplitFields.fits
  | .shareView _ tag body => requestOk tag body TabPageFields.fits
  | .tender _ tag body => requestOk tag body TenderFields.fits
  | .undoTender _ tag body => requestOk tag body UndoTenderFields.fits
  | .dropSplit _ tag body => requestOk tag body fits16
  | .adopt _ tag body => requestOk tag body fits16
  | .takeClosed _ tag body => requestOk tag body noField
  | .loadItem _ tag body => requestOk tag body LoadItemFields.fits
  | .withdrawItem _ tag body => requestOk tag body fits16
  | .loadModifier _ tag body => requestOk tag body LoadModifierFields.fits
  | .setTaxRate _ tag body => requestOk tag body SetTaxRateFields.fits
  | .setGroupPriority _ tag body => requestOk tag body SetGroupPriorityFields.fits
  | .setCount _ tag body => requestOk tag body SetCountFields.fits
  | .availability _ tag body => requestOk tag body fits16
  | .setPort _ tag body => requestOk tag body SetPortFields.fits
  | .events _ tag body => requestOk tag body noField
  | .setMask _ tag body => requestOk tag body fits16
  | .setClock _ tag body => requestOk tag body fits32
  | .status _ tag body => requestOk tag body noField
  | .reset _ tag body => requestOk tag body noField

end Sys2Proof
end

