-- ==== Sys2Proof/Decode.lean ====
section
/-! DEFINITION. From bytes to commands and back: the fields of a request body (R176, R178), the frames of R172, and
`decodeTableWord`, which reads no word since the opcode table gives its rows no bits (entry 2). -/

namespace Sys2Proof

open Sys2Proof.Machine

/-- How a value is written as bytes, and read from the front of a list of bytes with what is left. -/
structure Codec (α : Type) where
  put : α → List Byte
  get : List Byte → Option (α × List Byte)

namespace Machine

/-! ### Reading numbers (R172, R178) -/

def getU8 : List Byte → Option (Nat × List Byte)
  | b :: rest => some (b.toNat, rest)
  | _ => none

def getU16 : List Byte → Option (Nat × List Byte)
  | a :: b :: rest => some (a.toNat + 256 * b.toNat, rest)
  | _ => none

def getU32 : List Byte → Option (Nat × List Byte)
  | a :: b :: c :: d :: rest => some (a.toNat + 256 * b.toNat + 65536 * c.toNat + 16777216 * d.toNat, rest)
  | _ => none

/-- A flag or presence byte: any value but 0 and 1 makes the body unreadable (R176). -/
def getFlag : List Byte → Option (Bool × List Byte)
  | b :: rest => if b.toNat = 0 then some (false, rest) else if b.toNat = 1 then some (true, rest) else none
  | _ => none

/-- The value of two bytes as two's complement. -/
def signed16 (n : Nat) : Int := if n < 32768 then n else (n : Int) - 65536

/-! ### The field codecs -/

def byteCodec : Codec Nat := ⟨u8, getU8⟩
def halfCodec : Codec Nat := ⟨u16, getU16⟩
def wordCodec : Codec Nat := ⟨u32, getU32⟩
def flagCodec : Codec Bool := ⟨fun b => u8 b.toNat, getFlag⟩
def unitCodec : Codec Unit := ⟨fun _ => [], fun bytes => some ((), bytes)⟩

/-- A modifier delta (R178). -/
def deltaCodec : Codec Int :=
  ⟨fun d => u16 (d % 65536).toNat, fun bytes => (getU16 bytes).map fun q => (signed16 q.1, q.2)⟩

/-- One field after another. -/
def pairCodec {α β : Type} (a : Codec α) (b : Codec β) : Codec (α × β) :=
  ⟨fun q => a.put q.1 ++ b.put q.2,
   fun bytes => (a.get bytes).bind fun x => (b.get x.2).map fun y => ((x.1, y.1), y.2)⟩

/-- An optional field (R178). -/
def optionalCodec {α : Type} (a : Codec α) : Codec (Option α) :=
  ⟨fun o =>
      match o with
      | none => u8 0
      | some x => u8 1 ++ a.put x,
   fun bytes => (getFlag bytes).bind fun x =>
      if x.1 then (a.get x.2).map fun y => (some y.1, y.2) else some (none, x.2)⟩

/-- A number of elements read one after another. -/
def getMany {α : Type} (a : Codec α) : Nat → List Byte → Option (List α × List Byte)
  | 0, bytes => some ([], bytes)
  | n + 1, bytes => (a.get bytes).bind fun x => (getMany a n x.2).map fun y => (x.1 :: y.1, y.2)

/-- A list: a count byte, then the elements (R178). -/
def listCodec {α : Type} (a : Codec α) : Codec (List α) :=
  ⟨fun l => u8 l.length ++ l.flatMap a.put, fun bytes => (getU8 bytes).bind fun x => getMany a x.1 x.2⟩

/-- A record written as the fields of another form. -/
def recordCodec {α β : Type} (a : Codec α) (make : α → β) (parts : β → α) : Codec β :=
  ⟨fun r => a.put (parts r), fun bytes => (a.get bytes).map fun x => (make x.1, x.2)⟩

/-! ### Request bodies, their fields in the order of their rules; PRESUMED (entry 13): a field for which a rule has an absent
case carries a presence byte -/

def openTabCodec : Codec OpenTabFields :=
  recordCodec (pairCodec halfCodec (optionalCodec wordCodec)) (fun q => ⟨q.1, q.2⟩) (fun f => (f.service, f.pin))

def tabPageCodec : Codec TabPageFields :=
  recordCodec (pairCodec halfCodec byteCodec) (fun q => ⟨q.1, q.2⟩) (fun f => (f.tab, f.first))

def addLineCodec : Codec AddLineFields :=
  recordCodec
    (pairCodec halfCodec (pairCodec halfCodec (pairCodec (optionalCodec byteCodec)
      (pairCodec (optionalCodec byteCodec) (listCodec byteCodec)))))
    (fun q => ⟨q.1, q.2.1, q.2.2.1, q.2.2.2.1, q.2.2.2.2⟩)
    (fun f => (f.tab, f.item, f.quantity, f.seat, f.mods))

def voidLineCodec : Codec VoidLineFields :=
  recordCodec (pairCodec halfCodec byteCodec) (fun q => ⟨q.1, q.2⟩) (fun f => (f.tab, f.line))

def compLineCodec : Codec CompLineFields :=
  recordCodec (pairCodec halfCodec (pairCodec byteCodec byteCodec)) (fun q => ⟨q.1, q.2.1, q.2.2⟩)
    (fun f => (f.tab, f.line, f.reason))

def overridePriceCodec : Codec OverridePriceFields :=
  recordCodec (pairCodec halfCodec (pairCodec byteCodec (pairCodec (optionalCodec wordCodec) byteCodec)))
    (fun q => ⟨q.1, q.2.1, q.2.2.1, q.2.2.2⟩) (fun f => (f.tab, f.line, f.price, f.reason))

def setServiceCodec : Codec SetServiceFields :=
  recordCodec (pairCodec halfCodec halfCodec) (fun q => ⟨q.1, q.2⟩) (fun f => (f.tab, f.rate))

def tabPinCodec : Codec TabPinFields :=
  recordCodec (pairCodec halfCodec (optionalCodec wordCodec)) (fun q => ⟨q.1, q.2⟩) (fun f => (f.tab, f.pin))

def clearLockoutCodec : Codec ClearLockoutFields :=
  recordCodec (pairCodec halfCodec byteCodec) (fun q => ⟨q.1, q.2⟩) (fun f => (f.tab, f.reason))

def fireCodec : Codec FireFields :=
  recordCodec (pairCodec halfCodec (optionalCodec (listCodec byteCodec))) (fun q => ⟨q.1, q.2⟩)
    (fun f => (f.tab, f.groups))

def setStationCodec : Codec SetStationFields :=
  recordCodec (pairCodec byteCodec (pairCodec byteCodec (pairCodec (optionalCodec byteCodec) halfCodec)))
    (fun q => ⟨q.1, q.2.1, q.2.2.1, q.2.2.2⟩) (fun f => (f.station, f.state, f.alternate, f.threshold))

def splitCodec : Codec SplitFields :=
  recordCodec
    (pairCodec halfCodec (pairCodec byteCodec (pairCodec (optionalCodec byteCodec)
      (optionalCodec (listCodec (pairCodec byteCodec byteCodec))))))
    (fun q => ⟨q.1, q.2.1, q.2.2.1, q.2.2.2⟩) (fun f => (f.tab, f.mode, f.count, f.map))

def tenderCodec : Codec TenderFields :=
  recordCodec
    (pairCodec halfCodec (pairCodec byteCodec (pairCodec byteCodec (pairCodec (optionalCodec wordCodec)
      (optionalCodec wordCodec)))))
    (fun q => ⟨q.1, q.2.1, q.2.2.1, q.2.2.2.1, q.2.2.2.2⟩)
    (fun f => (f.tab, f.share, f.kind, f.amount, f.tip))

def undoTenderCodec : Codec UndoTenderFields :=
  recordCodec (pairCodec halfCodec (pairCodec byteCodec byteCodec)) (fun q => ⟨q.1, q.2.1, q.2.2⟩)
    (fun f => (f.tab, f.share, f.reason))

def loadItemCodec : Codec LoadItemFields :=
  recordCodec
    (pairCodec halfCodec (pairCodec wordCodec (pairCodec byteCodec (pairCodec byteCodec (pairCodec byteCodec
      (pairCodec byteCodec halfCodec))))))
    (fun q => ⟨q.1, q.2.1, q.2.2.1, q.2.2.2.1, q.2.2.2.2.1, q.2.2.2.2.2.1, q.2.2.2.2.2.2⟩)
    (fun f => (f.item, f.price, f.taxClass, f.station, f.group, f.mode, f.count))

def loadModifierCodec : Codec LoadModifierFields :=
  recordCodec (pairCodec byteCodec deltaCodec) (fun q => ⟨q.1, q.2⟩) (fun f => (f.code, f.delta))

def setTaxRateCodec : Codec SetTaxRateFields :=
  recordCodec (pairCodec byteCodec halfCodec) (fun q => ⟨q.1, q.2⟩) (fun f => (f.taxClass, f.rate))

def setGroupPriorityCodec : Codec SetGroupPriorityFields :=
  recordCodec (pairCodec byteCodec byteCodec) (fun q => ⟨q.1, q.2⟩) (fun f => (f.group, f.priority))

def setCountCodec : Codec SetCountFields :=
  recordCodec (pairCodec halfCodec halfCodec) (fun q => ⟨q.1, q.2⟩) (fun f => (f.item, f.count))

def setPortCodec : Codec SetPortFields :=
  recordCodec
    (pairCodec byteCodec (pairCodec byteCodec (pairCodec (optionalCodec byteCodec) (pairCodec flagCodec flagCodec))))
    (fun q => ⟨q.1, q.2.1, q.2.2.1, q.2.2.2.1, q.2.2.2.2⟩)
    (fun f => (f.port, f.role, f.station, f.supervisor, f.notices))

/-- The body of PAUSE and OPEN: no field from a lane port, the station number from the office (R102). -/
def workingCodec (p : Port) : Codec (Option Nat) :=
  match p with
  | .lane _ => recordCodec unitCodec (fun _ => none) (fun _ => ())
  | .office => recordCodec byteCodec some (fun o => o.getD 0)

/-! ### Frames (R172, R173, R176) -/

/-- The fields of a body: unreadable when the bytes are too few, when some are left over, or when a presence or flag byte is
neither 0 nor 1 (R176). -/
def readBody {α : Type} (c : Codec α) (bytes : List Byte) : Body α :=
  match c.get bytes with
  | some (a, []) => .fields a
  | _ => .unread bytes

/-- The bytes of a frame around a number of counted bytes: the start byte, the length and the CRC (R172). -/
def frameSize (counted : Nat) : Nat := counted + 4

/-- The bytes of a request's frame (R172). -/
def requestSize {α : Type} (c : Codec α) (body : Body α) : Nat :=
  match body with
  | .fields f => frameSize (2 + (c.put f).length)
  | .unread bytes => frameSize (2 + bytes.length)

/-- The command that a received request of a kind is. -/
def requestOf (k : Kind) (p : Port) (tag : Nat) (body : List Byte) : Instr :=
  match k with
  | .openTab => .openTab p tag (readBody openTabCodec body)
  | .tabView => .tabView p tag (readBody tabPageCodec body)
  | .addLine => .addLine p tag (readBody addLineCodec body)
  | .voidLine => .voidLine p tag (readBody voidLineCodec body)
  | .compLine => .compLine p tag (readBody compLineCodec body)
  | .overridePrice => .overridePrice p tag (readBody overridePriceCodec body)
  | .follow => .follow p tag (readBody halfCodec body)
  | .unfollow => .unfollow p tag (readBody halfCodec body)
  | .setService => .setService p tag (readBody setServiceCodec body)
  | .unlock => .unlock p tag (readBody tabPinCodec body)
  | .lock => .lock p tag (readBody halfCodec body)
  | .setPin => .setPin p tag (readBody tabPinCodec body)
  | .clearLockout => .clearLockout p tag (readBody clearLockoutCodec body)
  | .fire => .fire p tag (readBody fireCodec body)
  | .rail => .rail p tag (readBody unitCodec body)
  | .take => .take p tag (readBody unitCodec body)
  | .bump => .bump p tag (readBody unitCodec body)
  | .resume => .resume p tag (readBody unitCodec body)
  | .recallTicket => .recallTicket p tag (readBody halfCodec body)
  | .holdLow => .holdLow p tag (readBody byteCodec body)
  | .pause => .pause p tag (readBody (workingCodec p) body)
  | .openStation => .openStation p tag (readBody (workingCodec p) body)
  | .stationView => .stationView p tag (readBody byteCodec body)
  | .setStation => .setStation p tag (readBody setStationCodec body)
  | .passSupervisor => .passSupervisor p tag (readBody byteCodec body)
  | .reclaim => .reclaim p tag (readBody unitCodec body)
  | .approvalList => .approvalList p tag (readBody byteCodec body)
  | .approve => .approve p tag (readBody byteCodec body)
  | .deny => .deny p tag (readBody byteCodec body)
  | .withdraw => .withdraw p tag (readBody byteCodec body)
  | .results => .results p tag (readBody unitCodec body)
  | .split => .split p tag (readBody splitCodec body)
  | .shareView => .shareView p tag (readBody tabPageCodec body)
  | .tender => .tender p tag (readBody tenderCodec body)
  | .undoTender => .undoTender p tag (readBody undoTenderCodec body)
  | .dropSplit => .dropSplit p tag (readBody halfCodec body)
  | .adopt => .adopt p tag (readBody halfCodec body)
  | .takeClosed => .takeClosed p tag (readBody unitCodec body)
  | .loadItem => .loadItem p tag (readBody loadItemCodec body)
  | .withdrawItem => .withdrawItem p tag (readBody halfCodec body)
  | .loadModifier => .loadModifier p tag (readBody loadModifierCodec body)
  | .setTaxRate => .setTaxRate p tag (readBody setTaxRateCodec body)
  | .setGroupPriority => .setGroupPriority p tag (readBody setGroupPriorityCodec body)
  | .setCount => .setCount p tag (readBody setCountCodec body)
  | .availability => .availability p tag (readBody halfCodec body)
  | .setPort => .setPort p tag (readBody setPortCodec body)
  | .events => .events p tag (readBody unitCodec body)
  | .setMask => .setMask p tag (readBody halfCodec body)
  | .setClock => .setClock p tag (readBody wordCodec body)
  | .status => .status p tag (readBody unitCodec body)
  | .reset => .reset p tag (readBody unitCodec body)

/-- The command that a complete frame with a matching CRC is, by what stands from its tag to its last body byte (R176). -/
def received (p : Port) (content : List Byte) : Option Instr :=
  match content with
  | tag :: kind :: body =>
    if tag.toNat = 0 ∨ 0x80 ≤ kind.toNat then some (.badTagOrKind p tag.toNat ⟨kind.toNat, body⟩)
    else
      match kindOfCode kind.toNat with
      | some k => some (requestOf k p tag.toNat body)
      | none => some (.unknownKind p tag.toNat ⟨kind.toNat, body⟩)
  | _ => none

/-- The CRC carried by the two bytes at the end of a frame, high byte first (R172). -/
def crcOf (bytes : List Byte) : BitVec 16 :=
  match bytes with
  | [hi, lo] => BitVec.ofNat 16 (256 * hi.toNat + lo.toNat)
  | _ => 0

/-- The command that the bytes of one whole frame are, from the start byte to the byte that ends it; none for bytes that are no
whole frame (R172, R173). -/
def commandOf (p : Port) (frame : List Byte) : Option Instr :=
  match frame with
  | start :: length :: rest =>
    if start ≠ startByte then none
    else if !lengthOk length.toNat then if rest = [] then some (.lengthError p length.toNat) else none
    else if rest.length ≠ length.toNat + 2 then none
    else
      let counted := length :: rest.take length.toNat
      let crc := crcOf (rest.drop length.toNat)
      if crc16 counted ≠ crc then some (.crcMismatch p counted crc) else received p (rest.take length.toNat)
  | _ => none

/-- The frame of a request (R172). -/
def requestFrame {α : Type} (k : Kind) (c : Codec α) (tag : Nat) (body : Body α) : Option (List Byte) :=
  match body with
  | .fields f => some (wrapFrame (u8 tag ++ u8 (kindCode k) ++ c.put f))
  | .unread _ => none

/-- The frame that a request command is; none for a command that is no request or whose body is unreadable. -/
def frameOf : Instr → Option (List Byte)
  | .powerOn | .resetPin | .secondTick | .csDeasserted | .officeRequestOverrun | .replyClockedOut | .splitBegin
  | .splitCompletion | .resetPinAsserted | .lateExpiry _ | .claimLapse _ | .frameTimeout _ | .transmitListFull _
  | .frameSent _ | .startByteReceived _ | .lengthError _ _ | .crcMismatch _ _ _ | .badTagOrKind _ _ _
  | .unknownKind _ _ _ => none
  | .openTab _ tag body => requestFrame .openTab openTabCodec tag body
  | .tabView _ tag body => requestFrame .tabView tabPageCodec tag body
  | .addLine _ tag body => requestFrame .addLine addLineCodec tag body
  | .voidLine _ tag body => requestFrame .voidLine voidLineCodec tag body
  | .compLine _ tag body => requestFrame .compLine compLineCodec tag body
  | .overridePrice _ tag body => requestFrame .overridePrice overridePriceCodec tag body
  | .follow _ tag body => requestFrame .follow halfCodec tag body
  | .unfollow _ tag body => requestFrame .unfollow halfCodec tag body
  | .setService _ tag body => requestFrame .setService setServiceCodec tag body
  | .unlock _ tag body => requestFrame .unlock tabPinCodec tag body
  | .lock _ tag body => requestFrame .lock halfCodec tag body
  | .setPin _ tag body => requestFrame .setPin tabPinCodec tag body
  | .clearLockout _ tag body => requestFrame .clearLockout clearLockoutCodec tag body
  | .fire _ tag body => requestFrame .fire fireCodec tag body
  | .rail _ tag body => requestFrame .rail unitCodec tag body
  | .take _ tag body => requestFrame .take unitCodec tag body
  | .bump _ tag body => requestFrame .bump unitCodec tag body
  | .resume _ tag body => requestFrame .resume unitCodec tag body
  | .recallTicket _ tag body => requestFrame .recallTicket halfCodec tag body
  | .holdLow _ tag body => requestFrame .holdLow byteCodec tag body
  | .pause p tag body => requestFrame .pause (workingCodec p) tag body
  | .openStation p tag body => requestFrame .openStation (workingCodec p) tag body
  | .stationView _ tag body => requestFrame .stationView byteCodec tag body
  | .setStation _ tag body => requestFrame .setStation setStationCodec tag body
  | .passSupervisor _ tag body => requestFrame .passSupervisor byteCodec tag body
  | .reclaim _ tag body => requestFrame .reclaim unitCodec tag body
  | .approvalList _ tag body => requestFrame .approvalList byteCodec tag body
  | .approve _ tag body => requestFrame .approve byteCodec tag body
  | .deny _ tag body => requestFrame .deny byteCodec tag body
  | .withdraw _ tag body => requestFrame .withdraw byteCodec tag body
  | .results _ tag body => requestFrame .results unitCodec tag body
  | .split _ tag body => requestFrame .split splitCodec tag body
  | .shareView _ tag body => requestFrame .shareView tabPageCodec tag body
  | .tender _ tag body => requestFrame .tender tenderCodec tag body
  | .undoTender _ tag body => requestFrame .undoTender undoTenderCodec tag body
  | .dropSplit _ tag body => requestFrame .dropSplit halfCodec tag body
  | .adopt _ tag body => requestFrame .adopt halfCodec tag body
  | .takeClosed _ tag body => requestFrame .takeClosed unitCodec tag body
  | .loadItem _ tag body => requestFrame .loadItem loadItemCodec tag body
  | .withdrawItem _ tag body => requestFrame .withdrawItem halfCodec tag body
  | .loadModifier _ tag body => requestFrame .loadModifier loadModifierCodec tag body
  | .setTaxRate _ tag body => requestFrame .setTaxRate setTaxRateCodec tag body
  | .setGroupPriority _ tag body => requestFrame .setGroupPriority setGroupPriorityCodec tag body
  | .setCount _ tag body => requestFrame .setCount setCountCodec tag body
  | .availability _ tag body => requestFrame .availability halfCodec tag body
  | .setPort _ tag body => requestFrame .setPort setPortCodec tag body
  | .events _ tag body => requestFrame .events unitCodec tag body
  | .setMask _ tag body => requestFrame .setMask halfCodec tag body
  | .setClock _ tag body => requestFrame .setClock wordCodec tag body
  | .status _ tag body => requestFrame .status unitCodec tag body
  | .reset _ tag body => requestFrame .reset unitCodec tag body

/-- The port a start byte arrives at. -/
def startPort : StartByte → Port
  | .lane l => .lane l
  | .office _ => .office

/-- The port a request command comes from. -/
def portOf : Instr → Option Port
  | .powerOn | .resetPin | .secondTick | .csDeasserted | .officeRequestOverrun | .replyClockedOut | .splitBegin
  | .splitCompletion | .resetPinAsserted | .lateExpiry _ | .claimLapse _ | .frameTimeout _ | .transmitListFull _
  | .frameSent _ => none
  | .startByteReceived b => some (startPort b)
  | .lengthError p _ | .crcMismatch p _ _ | .badTagOrKind p _ _ | .unknownKind p _ _ => some p
  | .openTab p _ _ | .tabView p _ _ | .addLine p _ _ | .voidLine p _ _ | .compLine p _ _ | .overridePrice p _ _
  | .follow p _ _ | .unfollow p _ _ | .setService p _ _ | .unlock p _ _ | .lock p _ _ | .setPin p _ _
  | .clearLockout p _ _ | .fire p _ _ | .rail p _ _ | .take p _ _ | .bump p _ _ | .resume p _ _ | .recallTicket p _ _
  | .holdLow p _ _ | .pause p _ _ | .openStation p _ _ | .stationView p _ _ | .setStation p _ _
  | .passSupervisor p _ _ | .reclaim p _ _ | .approvalList p _ _ | .approve p _ _ | .deny p _ _ | .withdraw p _ _
  | .results p _ _ | .split p _ _ | .shareView p _ _ | .tender p _ _ | .undoTender p _ _ | .dropSplit p _ _
  | .adopt p _ _ | .takeClosed p _ _ | .loadItem p _ _ | .withdrawItem p _ _ | .loadModifier p _ _
  | .setTaxRate p _ _ | .setGroupPriority p _ _ | .setCount p _ _ | .availability p _ _ | .setPort p _ _
  | .events p _ _ | .setMask p _ _ | .setClock p _ _ | .status p _ _ | .reset p _ _ => some p

end Machine

/-- The command a word spells by the opcode table's bits: the table gives its rows no bits, so no word spells one. DESIGN CHOICE
(entry 2), safe: commands reach the part as frames and events, not as words. -/
def decodeTableWord (_nbits _w : Nat) : Option Instr := none

end Sys2Proof
end

