-- ==== Sys2Proof/Machine/Flags.lean ====
section
/-! DEFINITION. The flags of the port interface: event sets, masks and pending sets, the raising of events, notices, and the
output levels ATTN and REPLY_READY (R167, R175, R179 to R181). -/

namespace Sys2Proof.Machine

/-- The entry of a lane port. -/
def State.port (s : State) (l : Lane) : PortEntry := s.ports.get l

def State.setPort (s : State) (l : Lane) (e : PortEntry) : State := { s with ports := s.ports.set l e }

/-- The entry with one kind added to its event set, whatever its mask, role and flags (R179). -/
def PortEntry.latch (k : EventKind) (e : PortEntry) : PortEntry := { e with events := e.events ||| eventBit k }

/-- The event set less the kinds left out of the mask (R179). -/
def PortEntry.pendingSet (e : PortEntry) : EventSet := e.events &&& e.mask

/-- Raise a kind to every lane of a list (R179). -/
def raiseLanes (k : EventKind) (ls : List Lane) (s : State) : State :=
  { s with ports := tableOf fun l => if l ∈ ls then (s.port l).latch k else s.port l }

/-- Raise a kind to every lane port whose role is TILL (R17). -/
def raiseTills (k : EventKind) (s : State) : State :=
  { s with ports := tableOf fun l => if (s.port l).role = .till then (s.port l).latch k else s.port l }

/-- Raise a kind to the office port (R168, R179). -/
def raiseOffice (k : EventKind) (s : State) : State := { s with officeEvents := s.officeEvents ||| eventBit k }

/-- Raise a kind to one port. -/
def raisePort (k : EventKind) (p : Port) (s : State) : State :=
  match p with
  | .lane l => raiseLanes k [l] s
  | .office => raiseOffice k s

/-- Raise a kind to a port that may not be there: an event raised to no port is latched by no one (R179). -/
def raiseOptional (k : EventKind) (l : Option Lane) (s : State) : State := raiseLanes k l.toList s

/-! ### Output levels -/

/-- The office's pending set. -/
def State.officePending (s : State) : EventSet := s.officeEvents &&& s.officeMask

/-- ATTN is high while the office's pending set is not empty (R181). -/
def State.attn (s : State) : Bool := s.officePending ≠ 0

/-- REPLY_READY is high while the reply slot holds a frame (R175). -/
def State.replyReady (s : State) : Bool := s.replySlot.isSome

/-! ### Notices (R180) -/

/-- A port entry after a step, with the notice of a rise of its pending set at the end of its transmit list. `fresh` says that
the step emptied the set before it raised what stands in it now. DESIGN CHOICE (entry 10), unsafe: a step is whole, so the
notice holds the pending set as the step leaves it. -/
def withNotice (fresh : Bool) (before after : PortEntry) : PortEntry :=
  if after.notices && after.role ≠ .off && (fresh || before.pendingSet = 0) && after.pendingSet ≠ 0 then
    { after with transmit := after.transmit ++ [.notice after.pendingSet] }
  else after

/-- The notices of a step that led from one state to another; `fresh` is the lane whose port reset stands inside the step. -/
def composeNotices (fresh : Option Lane) (before after : State) : State :=
  { after with ports := tableOf fun l => withNotice (fresh = some l) (before.port l) (after.port l) }

end Sys2Proof.Machine
end

