-- ==== Sys2Proof/Machine/Ops.lean ====
section
/-! DEFINITION. Operations over tabs, lines and items that the commands share, and the form of an answer. -/

namespace Sys2Proof.Machine

/-! ### Answers -/

/-- What the owning block makes of a request: the state after it, and its reply (none for RESET and for an accepted SPLIT,
whose reply is withheld: R148, R186). -/
abbrev Answer := State × Option Reply

/-- An answer with a status and the fields of its body. -/
def answer (s : State) (status : Status) (body : List Field := []) : Answer := (s, some ⟨status, body⟩)

/-- An optional field: a presence byte, then the value when present (R178). -/
def optField {α : Type} (f : α → List Field) : Option α → List Field
  | none => [Field.presence false]
  | some a => Field.presence true :: f a

/-- A list: a count byte, then the elements (R178). -/
def listField {α : Type} (f : α → List Field) (l : List α) : List Field :=
  Field.listCount l.length :: l.flatMap f

/-! ### Numbers taken from a counter that skips those in use (R25, R66, R118) -/

/-- The number after one, wrapping from `top` to 1. -/
def nextNumber (top n : Nat) : Nat := if n < top then n + 1 else 1

/-- The first number not in use, counting upward from `n` and wrapping from `top` to 1; `fuel` bounds the search. -/
def firstUnused (used : Nat → Bool) (top : Nat) : Nat → Nat → Nat
  | 0, n => n
  | fuel + 1, n => if used n then firstUnused used top fuel (nextNumber top n) else n

/-! ### Tabs (R21, R24) -/

def State.tab (s : State) (i : Slot) : Tab := s.tabs.get i

def State.setTab (s : State) (i : Slot) (t : Tab) : State := { s with tabs := s.tabs.set i t }

/-- The record of one slot changed by a function. -/
def State.modifyTab (s : State) (i : Slot) (f : Tab → Tab) : State := s.setTab i (f (s.tab i))

/-- Whether a slot holds a tab that bears a number (R21: a number is held while its tab is not FREE). -/
def State.bears (s : State) (i : Slot) (n : Nat) : Bool := (s.tab i).state ≠ .free && (s.tab i).number = n

/-- The slot of the tab with a number; none for a number outside 1–9999 or not held (R24). -/
def State.findTab (s : State) (n : Nat) : Option Slot :=
  if 1 ≤ n ∧ n ≤ Config.maxTabNumber then (List.finRange 128).find? (fun i => s.bears i n) else none

/-- TAB_CHANGED raised to the followers of a tab (R46). -/
def touch (i : Slot) (s : State) : State := raiseLanes .tabChanged (s.tab i).followers s

/-- A request of the settle owner that names its tab restarts the settle claim (R161); an absent countdown stays absent. -/
def restartClaim (p : Port) (i : Slot) (s : State) : State :=
  if (s.tab i).owner.map Port.lane = some p then
    s.modifyTab i (fun t => { t with claim := t.claim.map (fun _ => Config.claimSeconds) })
  else s

/-- A request that names a tab: NO_TAB when the number is not held (R24), with the figures its rule gives that refusal;
otherwise the settle claim is restarted where R161 says so, before the request's own effect. -/
def withTab (p : Port) (n : Nat) (s : State) (k : Slot → State → Answer) (missing : List Field := []) : Answer :=
  match s.findTab n with
  | none => answer s .noTab missing
  | some i => k i (restartClaim p i s)

/-- Whether a lane port is an unlocked till for a tab (R51). -/
def unlockedTill (l : Lane) (t : Tab) (s : State) : Bool :=
  (s.port l).role = .till && (t.pin.isNone || t.unlocked.contains l)

/-- Whether a port is a locked port for a tab (R51); the office port is not. -/
def lockedPort (p : Port) (t : Tab) (s : State) : Bool :=
  match p with
  | .lane l => !unlockedTill l t s
  | .office => false

/-- A money figure of a tab as a port is shown it: 0 for a locked port (R59). -/
def figure (p : Port) (t : Tab) (s : State) (n : Nat) : Nat := if lockedPort p t s then 0 else n

/-- The refusal of a request that needs its tab OPEN (R22, R34). -/
def notOpen (st : TabState) : Status := if st = .settling then .tabSettling else .wrongState

/-! ### Lines (R27 to R30) -/

/-- The amount of a line (R28). -/
def Line.amount (l : Line) : Nat := if l.comped then 0 else l.price * l.quantity

/-- The line of a tab with a line number; none when the tab has no such line (R24). -/
def Tab.line? (t : Tab) (n : Nat) : Option Line := if n = 0 then none else t.lines[n - 1]?

/-- The tab with one line replaced. -/
def Tab.setLine (t : Tab) (n : Nat) (l : Line) : Tab := { t with lines := t.lines.set (n - 1) l }

/-- The tab with one line VOIDED: it loses its ticket number, and the base falls by its amount (R29, R30). -/
def Tab.voidLine (t : Tab) (n : Nat) (l : Line) : Tab :=
  { t.setLine n { l with state := .voided, ticket := none } with base := t.base - l.amount }

/-- The tab with one line comped: the base falls by the line's amount before the comp (R30, R122). -/
def Tab.compLine (t : Tab) (n : Nat) (l : Line) : Tab :=
  { t.setLine n { l with comped := true } with base := t.base - l.amount }

/-- The base a tab would have with a new unit price for one of its lines (R43, R123). -/
def Tab.newBase (t : Tab) (l : Line) (price : Nat) : Nat :=
  if l.comped then t.base else t.base - l.amount + price * l.quantity

/-- The tab with one line's unit price replaced (R30, R123). -/
def Tab.priceLine (t : Tab) (n : Nat) (l : Line) (price : Nat) : Tab :=
  { t.setLine n { l with price := price } with base := t.newBase l price }

/-- The tab with the pending approval of one line set or cleared (R27). -/
def Tab.markLine (t : Tab) (n : Nat) (pending : Option Nat) : Tab :=
  match t.line? n with
  | some l => t.setLine n { l with pending := pending }
  | none => t

/-- The lines of a tab with their line numbers. -/
def Tab.numbered (t : Tab) : List (Nat × Line) := t.lines.zipIdx.map (fun p => (p.2 + 1, p.1))

/-- The lines of a tab changed where their line number is in a list. -/
def Tab.changeLines (t : Tab) (ns : List Nat) (f : Line → Line) : Tab :=
  { t with lines := t.lines.zipIdx.map (fun p => if ns.contains (p.2 + 1) then f p.1 else p.1) }

/-! ### Items (R1, R2, R11 to R17) -/

def State.item (s : State) (i : ItemNo) : Item := s.items.get i

def State.setItem (s : State) (i : ItemNo) (it : Item) : State := { s with items := s.items.set i it }

/-- The available figure of an item: none stands for unbounded (R2). -/
def Item.available (it : Item) : Option Nat :=
  match it.mode with
  | .limited => some (it.count - it.reserved)
  | .unlimited => none

/-- An item is out when it is LISTED, LIMITED and its available figure is 0 (R2). -/
def Item.out (it : Item) : Bool := it.state = .listed && it.available = some 0

/-- Reserve (R12). -/
def Item.reserve (q : Nat) (it : Item) : Item := { it with reserved := it.reserved + q }

/-- Release (R13). -/
def Item.release (q : Nat) (it : Item) : Item := { it with reserved := it.reserved - q }

/-- Consume (R14). -/
def Item.consume (q : Nat) (it : Item) : Item :=
  match it.mode with
  | .limited => { it with reserved := it.reserved - q, count := it.count - q }
  | .unlimited => { it with reserved := it.reserved - q }

/-- Restore (R15): a LIMITED count rises, not above 9,999. -/
def Item.restore (q : Nat) (it : Item) : Item :=
  match it.mode with
  | .limited => { it with count := min (it.count + q) Config.maxCount }
  | .unlimited => it

/-- A count brought into range: first not above 9,999, then not below the reserved quantity (R7, R10). -/
def Item.clampCount (it : Item) (c : Nat) : Nat := max (min c Config.maxCount) it.reserved

/-- Whether what a request did to an item raises AVAILABILITY_CHANGED (R16). -/
def availabilityChanged (before after : Item) : Bool :=
  (after.state = .listed && before.state ≠ .listed)
    || (after.state = .withdrawn && before.state = .listed)
    || (before.state = .listed && after.state = .listed && before.out ≠ after.out)

/-- An item record replaced, with AVAILABILITY_CHANGED raised to every TILL port where R16 says so (R17). -/
def updateItem (i : ItemNo) (it : Item) (s : State) : State :=
  let s' := s.setItem i it
  if availabilityChanged (s.item i) it then raiseTills .availabilityChanged s' else s'

/-- The fields of an item that LOAD_ITEM and SET_COUNT answer with (R7, R10). -/
def itemFigures (it : Item) : List Field :=
  [Field.code (itemStateCode it.state), Field.count it.count, Field.count it.reserved, Field.available it.available]

end Sys2Proof.Machine
end

