-- ==== Sys2Proof/Machine/TicketOps.lean ====
section
/-! DEFINITION. Operations over stations and tickets: dispatch order, the rail, live tickets, and lines leaving tickets
(R62 to R66, R78 to R92). -/

namespace Sys2Proof.Machine

def State.station (s : State) (i : StationNo) : Station := s.stations.get i

def State.setStation (s : State) (i : StationNo) (st : Station) : State := { s with stations := s.stations.set i st }

def State.modifyStation (s : State) (i : StationNo) (f : Station → Station) : State := s.setStation i (f (s.station i))

/-! ### Live tickets (R63, R65, R109) -/

/-- The live tickets of a station, each with the place where it stands. -/
def Station.tickets (st : Station) : List (TicketState × Ticket) :=
  st.queue.map (fun t => (.queued, t)) ++ st.inWork.toList.map (fun t => (.inWork, t))
    ++ st.stack.map (fun t => (.setAside, t))

/-- The live ticket with a number, with its station and the place where it stands. -/
def State.findLive (s : State) (n : Nat) : Option (StationNo × TicketState × Ticket) :=
  (List.finRange 8).findSome? fun i =>
    ((s.station i).tickets.find? (fun p => p.2.number = n)).map (fun p => (i, p.1, p.2))

/-- The number of live tickets the pool holds (R65, R109). -/
def State.occupancy (s : State) : Nat := ((List.finRange 8).map fun i => (s.station i).tickets.length).sum

/-- The pool's free count (R65). -/
def State.poolFree (s : State) : Nat := Config.poolSize - s.occupancy

/-- A ticket number is in use while it names a live ticket or a DONE ticket in a recall list (R66). -/
def State.ticketInUse (s : State) (n : Nat) : Bool :=
  (List.finRange 8).any fun i =>
    (s.station i).tickets.any (fun p => p.2.number = n) || (s.station i).recalls.any (fun t => t.number = n)

/-- Every live ticket of a station changed by a function. -/
def Station.mapLive (f : Ticket → Ticket) (st : Station) : Station :=
  { st with queue := st.queue.map f, inWork := st.inWork.map f, stack := st.stack.map f }

/-- Every live ticket changed by a function. -/
def State.mapLive (f : Ticket → Ticket) (s : State) : State :=
  { s with stations := tableOf fun i => (s.station i).mapLive f }

/-! ### Dispatch order and rail (R89 to R91) -/

/-- The priority of a ticket's group, read from the table as it stands (R89). -/
def State.priority (s : State) (g : GroupNo) : Priority := s.priorities.get g

/-- Whether a QUEUED ticket of a station is eligible (R89). -/
def State.eligible (s : State) (i : StationNo) (t : Ticket) : Bool :=
  (s.station i).state = .opened && (s.priority t.group = .high || !(s.station i).holdLow)

/-- Tickets by fire sequence ascending, compared as numbers (R67, R90). DESIGN CHOICE (entry 29), unsafe: of two with the same
sequence, which a wrap of the counter past a ticket still queued can leave, the one that joined the queue first goes first. -/
def bySequence (ts : List Ticket) : List Ticket := ts.insertionSort (fun a b => a.seq ≤ b.seq)

/-- The dispatch order of a station: eligible HIGH tickets by fire sequence, then eligible LOW ones (R90). -/
def State.dispatch (s : State) (i : StationNo) : List Ticket :=
  let q := (s.station i).queue.filter (s.eligible i)
  bySequence (q.filter fun t => s.priority t.group = .high) ++ bySequence (q.filter fun t => s.priority t.group = .low)

/-- The first two tickets of the dispatch order, as a pair of optional numbers (R91). -/
def State.railOf (s : State) (i : StationNo) : Option Nat × Option Nat :=
  ((s.dispatch i)[0]?.map Ticket.number, (s.dispatch i)[1]?.map Ticket.number)

/-- The rail recomputed: when it differs from the last reported rail it replaces it, and RAIL_CHANGED is raised to the bound
port, if there is one (R91). -/
def recomputeRail (i : StationNo) (s : State) : State :=
  if s.railOf i = (s.station i).rail then s
  else raiseOptional .railChanged (s.station i).port (s.modifyStation i fun st => { st with rail := s.railOf i })

/-- The rails of several stations recomputed, once per station. -/
def recomputeRails (is : List StationNo) (s : State) : State := is.foldl (fun s i => recomputeRail i s) s

/-- Every station, in order. -/
def allStations : List StationNo := List.finRange 8

/-! ### Ticket content (R92) -/

/-- The content of one line of a ticket: line number, item, quantity, seat, modifiers. -/
def lineContent (t : Tab) (n : Nat) : List Field :=
  match t.line? n with
  | none => []
  | some l =>
    [Field.small n, Field.ident l.item.val, Field.small l.quantity, Field.small l.seat]
      ++ listField (fun m => [Field.small m]) l.mods

/-- The tab record a number names, or the record of a FREE slot when none bears it. -/
def State.tabNumbered (s : State) (n : Nat) : Tab :=
  match s.findTab n with
  | some i => s.tab i
  | none => Tab.blank

/-- The content of a ticket as station replies carry it (R92); it holds no figure of money (R60). -/
def ticketContent (s : State) (place : TicketState) (t : Ticket) : List Field :=
  [Field.ident t.number, Field.ident t.tab, Field.code (ticketStateCode place), Field.small t.group.val,
    Field.code (priorityCode (s.priority t.group)), Field.small t.home.val, Field.flag t.rerouted, Field.flag t.lateFlag,
    Field.stamp t.firedAt]
    ++ listField (lineContent (s.tabNumbered t.tab)) t.lines

/-! ### Lines leaving tickets (R78 to R82, R108) -/

/-- The tickets of a place with one line taken out of the ticket of a number; a ticket left with no lines is gone (R78). -/
def removeFrom (number line : Nat) (ts : List Ticket) : List Ticket :=
  ts.filterMap fun t =>
    if t.number = number then
      let rest := t.lines.filter (fun n => n ≠ line)
      if rest = [] then none else some { t with lines := rest }
    else some t

/-- A station with one line taken out of a live ticket (R78, R80, R82). -/
def Station.removeLine (number line : Nat) (st : Station) : Station :=
  { st with
    queue := removeFrom number line st.queue
    inWork := (removeFrom number line st.inWork.toList).head?
    stack := removeFrom number line st.stack }

/-- Whether taking a line out leaves a ticket with no lines. -/
def Ticket.emptiedBy (t : Ticket) (line : Nat) : Bool := t.lines.filter (fun n => n ≠ line) = []

/-- The live ticket count of a tab lowered by one (R31). -/
def Tab.oneTicketLess (t : Tab) : Tab := { t with live := t.live - 1 }

/-- A pull-back (R38, R79): the line leaves its QUEUED ticket; an emptied ticket is withdrawn and the rail recomputed (R80);
the line is VOIDED, its quantity restored (R15), and TAB_CHANGED raised. -/
def pullBack (i : Slot) (n : Nat) (l : Line) (st : StationNo) (t : Ticket) (s : State) : State :=
  let s := s.modifyStation st (Station.removeLine t.number n)
  let s := if t.emptiedBy n then recomputeRail st (s.modifyTab i Tab.oneTicketLess) else s
  let s := s.modifyTab i (fun tab => tab.voidLine n l)
  touch i (updateItem l.item ((s.item l.item).restore l.quantity) s)

/-- The live ticket that holds a line, with its station and place. -/
def State.ticketOf (s : State) (l : Line) : Option (StationNo × TicketState × Ticket) := l.ticket.bind s.findLive

/-- The precondition of a VOID_FIRED: the line is FIRED and its ticket is live (R121). -/
def voidFiredReady (i : Slot) (n : Nat) (s : State) : Bool :=
  match (s.tab i).line? n with
  | some l => l.state = .fired && (s.ticketOf l).isSome
  | none => false

/-- The effect of a VOID_FIRED (R81): the line leaves its ticket; an emptied ticket is killed, and TICKET_KILLED goes to the
station's bound port (R82, R108); the line is VOIDED and TAB_CHANGED raised. The catalogue is not called (R15). -/
def applyVoidFired (i : Slot) (n : Nat) (s : State) : State :=
  match (s.tab i).line? n with
  | none => s
  | some l =>
    match s.ticketOf l with
    | none => s
    | some (st, _, t) =>
      let s := s.modifyStation st (Station.removeLine t.number n)
      let s :=
        if t.emptiedBy n then
          raiseOptional .ticketKilled (s.station st).port (s.modifyTab i Tab.oneTicketLess)
        else s
      touch i (s.modifyTab i fun tab => tab.voidLine n l)

end Sys2Proof.Machine
end

