-- ==== Sys2Proof/Machine/ApprovalOps.lean ====
section
/-! DEFINITION. The supervisor token, the approval queue and the result lists (R110 to R131), and what becoming FREE, closing
and releasing a split do to a tab (R23, R158, R159). -/

namespace Sys2Proof.Machine

/-! ### Share records (R153) -/

/-- The records of a list of references made free. -/
def freeShares (refs : List ShareNo) (s : State) : State :=
  { s with shares := tableOf fun j => if j ∈ refs then .free else s.shares.get j }

/-- The number of free share records (R153). -/
def State.freeShareCount (s : State) : Nat := ((List.finRange 384).filter fun j => s.shares.get j = .free).length

/-- The share records a tab's split reference names. -/
def Tab.shareRefs (t : Tab) : List ShareNo :=
  match t.split with
  | some r => r.refs
  | none => []

/-- The written share records of a tab, in share-index order. -/
def State.sharesOf (s : State) (t : Tab) : List Share :=
  t.shareRefs.filterMap fun j =>
    match s.shares.get j with
    | .held sh => some sh
    | .free | .reserved _ => none

/-- The share of a tab with a share index, with its record (R153); none outside 1–n. -/
def State.shareAt (s : State) (t : Tab) (index : Nat) : Option (ShareNo × Share) :=
  if index = 0 then none
  else
    match t.shareRefs[index - 1]? with
    | none => none
    | some j =>
      match s.shares.get j with
      | .held sh => some (j, sh)
      | .free | .reserved _ => none

def State.setShare (s : State) (j : ShareNo) (r : ShareRecord) : State := { s with shares := s.shares.set j r }

/-- Whether a tab's split is complete (R145). -/
def Tab.splitComplete (t : Tab) : Bool :=
  match t.split with
  | some r => r.totals.isSome
  | none => false

/-- What a share still owes: its due less its paid. -/
def Share.remaining (sh : Share) : Nat := sh.figures.due - sh.paid

/-! ### The token (R110) -/

/-- Whether a port holds the supervisor token. -/
def State.holds (s : State) (p : Port) : Bool := s.token = p

/-- APPROVAL_WAITING raised to the holder when the queue is not empty (R110). -/
def announceQueue (s : State) : State :=
  if s.approvals = [] then s else raisePort .approvalWaiting s.token s

/-- The token given to a port; the events are raised by the callers, which differ in them (R110). -/
def giveToken (p : Port) (s : State) : State := { s with token := p }

/-! ### Ending entries (R116, R129) -/

/-- The results of a lane. -/
def State.resultsOf (s : State) (l : Lane) : List Result := s.results.get l

/-- A result joined to the end of a list of at most four: the oldest is discarded (R129). -/
def pushResult (r : Result) (rs : List Result) : List Result :=
  let all := rs ++ [r]
  all.drop (all.length - Config.resultSize)

/-- The outcome of an entry recorded for its requester, and APPROVAL_DONE raised to it (R129). -/
def recordResult (e : Entry) (v : Verdict) (s : State) : State :=
  let r : Result := { number := e.number, ask := e.ask, tab := e.tab, verdict := v, decidedAt := s.clock }
  raiseLanes .approvalDone [e.requester]
    { s with results := s.results.set e.requester (pushResult r (s.resultsOf e.requester)) }

/-- An entry ended: it leaves the queue, the entries behind it closing up, and its outcome is recorded (R116, R129). -/
def closeEntry (v : Verdict) (s : State) (e : Entry) : State :=
  recordResult e v { s with approvals := s.approvals.filter (fun x => x.number ≠ e.number) }

/-- For a line kind, the line's pending approval cleared, and TAB_CHANGED raised (R120, R126). -/
def clearPending (e : Entry) (s : State) : State :=
  match askLine e.ask, s.findTab e.tab with
  | some n, some i => touch i (s.modifyTab i fun t => t.markLine n none)
  | _, _ => s

/-- An entry decided or withdrawn (R120, R126, R127). -/
def decideEntry (v : Verdict) (e : Entry) (s : State) : State := closeEntry v (clearPending e s) e

/-- The entry in the queue with a number (R120). -/
def State.findEntry (s : State) (n : Nat) : Option Entry := s.approvals.find? fun e => e.number = n

/-- The entries of a tab that satisfy a test ended with the outcome STALE, in arrival order (R128, R159). -/
def endStale (tab : Nat) (which : Ask → Bool) (s : State) : State :=
  (s.approvals.filter fun e => e.tab = tab && which e.ask).foldl (closeEntry .stale) s

/-! ### Queueing (R117, R118) -/

/-- The next approval number (R118). -/
def State.nextApproval (s : State) : Nat :=
  firstUnused (fun n => s.approvals.any fun e => e.number = n) Config.maxApprovalNumber Config.maxApprovalNumber
    s.approvalCounter

/-- A new entry at the end of the queue: the counter moves past its number, a line kind marks its line and raises TAB_CHANGED,
and APPROVAL_WAITING goes to the holder (R117). -/
def queueEntry (l : Lane) (i : Slot) (ask : Ask) (reason : Nat) (s : State) : State :=
  let n := s.nextApproval
  let e : Entry := { number := n, ask := ask, requester := l, tab := (s.tab i).number, reason := reason, queuedAt := s.clock }
  let s := { s with approvals := s.approvals ++ [e], approvalCounter := nextNumber Config.maxApprovalNumber n }
  let s :=
    match askLine ask with
    | some line => touch i (s.modifyTab i fun t => t.markLine line (some n))
    | none => s
  raisePort .approvalWaiting s.token s

/-- The three ways of a request that needs the supervisor (R117): applied at once for the holder, refused when the queue is
full, or queued. -/
def supervise (l : Lane) (i : Slot) (ask : Ask) (reason : Nat) (s : State) (applied full : Answer)
    (queuedBody : Nat → List Field) : Answer :=
  if s.holds (.lane l) then applied
  else if Config.approvalSize ≤ s.approvals.length then full
  else answer (queueEntry l i ask reason s) .queued (queuedBody s.nextApproval)

/-! ### Effects of the kinds (R121 to R125); VOID_FIRED stands in TicketOps -/

/-- A COMP applied (R122). -/
def applyComp (i : Slot) (n : Nat) (s : State) : State :=
  match (s.tab i).line? n with
  | some l => if l.comped then s else touch i (s.modifyTab i fun t => t.compLine n l)
  | none => s

/-- The precondition of a COMP entry: the line is not VOIDED and the tab is OPEN (R122). -/
def compReady (i : Slot) (n : Nat) (s : State) : Bool :=
  match (s.tab i).line? n with
  | some l => l.state ≠ .voided && (s.tab i).state = .opened
  | none => false

/-- A PRICE applied (R123). -/
def applyPrice (i : Slot) (n price : Nat) (s : State) : State :=
  match (s.tab i).line? n with
  | some l => touch i (s.modifyTab i fun t => t.priceLine n l price)
  | none => s

/-- The precondition of a PRICE entry: the line is not VOIDED, the tab is OPEN and the new base is within the limit (R123). -/
def priceReady (i : Slot) (n price : Nat) (s : State) : Bool :=
  match (s.tab i).line? n with
  | some l =>
    l.state ≠ .voided && (s.tab i).state = .opened && (s.tab i).newBase l price ≤ Config.maxBase
  | none => false

/-- A PIN_CLEAR applied (R55). -/
def applyPinClear (i : Slot) (s : State) : State := touch i (s.modifyTab i fun t => { t with wrongTries := 0 })

/-- A share without its most recent tender: its paid falls by the applied amount and it is DUE (R125). -/
def Share.undo (sh : Share) : Share :=
  match sh.tenders.getLast? with
  | none => sh
  | some t => { sh with tenders := sh.tenders.dropLast, paid := sh.paid - t.applied, state := .due }

/-- The precondition of an UNDO_TENDER entry: the tab is SETTLING and the share has a tender (R125). -/
def undoReady (i : Slot) (index : Nat) (s : State) : Bool :=
  match s.shareAt (s.tab i) index with
  | some (_, sh) => (s.tab i).state = .settling && sh.tenders ≠ []
  | none => false

/-- An UNDO_TENDER applied (R125). -/
def applyUndo (i : Slot) (index : Nat) (s : State) : State :=
  match s.shareAt (s.tab i) index with
  | some (j, sh) => touch i (s.setShare j (.held sh.undo))
  | none => s

/-- Whether the precondition of an entry's kind holds for the tab in a slot (R120). -/
def askReady (i : Slot) (ask : Ask) (s : State) : Bool :=
  match ask with
  | .voidFired n => voidFiredReady i n s
  | .comp n => compReady i n s
  | .price n p => priceReady i n p s
  | .pinClear => true
  | .undoTender k => undoReady i k s

/-- The effect of an entry's kind on the tab in a slot (R120). -/
def applyAsk (i : Slot) (ask : Ask) (s : State) : State :=
  match ask with
  | .voidFired n => applyVoidFired i n s
  | .comp n => applyComp i n s
  | .price n p => applyPrice i n p s
  | .pinClear => applyPinClear i s
  | .undoTender k => applyUndo i k s

/-! ### FREE, CLOSED and back to OPEN (R23, R158, R159) -/

/-- Every DONE ticket of a tab removed from every recall list (R23, R98). -/
def forgetDone (tab : Nat) (s : State) : State :=
  { s with stations := tableOf fun i =>
      { s.station i with recalls := (s.station i).recalls.filter fun t => t.tab ≠ tab } }

/-- A tab becoming FREE (R23): TAB_CHANGED to its followers, its approval entries ended STALE (R128), its DONE tickets gone
from the recall lists, and the slot back to its FREE values. -/
def freeTab (i : Slot) (s : State) : State :=
  let n := (s.tab i).number
  let s := touch i s
  let s := endStale n (fun _ => true) s
  let s := forgetDone n s
  s.setTab i Tab.blank

/-- A tab closing (R158). -/
def closeTab (i : Slot) (s : State) : State :=
  let s := s.modifyTab i fun t => { t with state := .closed, closedAt := some s.clock, owner := none, claim := none }
  let s := { s with closeQueue := s.closeQueue ++ [(s.tab i).number] }
  touch i (raiseOffice .closeWaiting s)

/-- Whether an approval asks to undo a tender. -/
def asksUndo : Ask → Bool
  | .undoTender _ => true
  | .voidFired _ | .comp _ | .price _ _ | .pinClear => false

/-- Whether an approval is money-changing: VOID_FIRED, COMP or PRICE (00_scope.md, Terms; R147). -/
def changesMoney : Ask → Bool
  | .voidFired _ | .comp _ | .price _ _ => true
  | .pinClear | .undoTender _ => false

/-- A tab's split released (R159): its records free, the split reference, owner and countdown absent, the tab OPEN, its
UNDO_TENDER entries ended STALE, and TAB_CHANGED raised once. -/
def releaseSplit (i : Slot) (s : State) : State :=
  let s := freeShares (s.tab i).shareRefs s
  let s := s.modifyTab i fun t => { t with state := .opened, split := none, owner := none, claim := none }
  touch i (endStale (s.tab i).number asksUndo s)

/-- Whether any share of a tab's split holds a tender (R160, R162). -/
def State.anyTender (s : State) (t : Tab) : Bool := (s.sharesOf t).any fun sh => sh.tenders ≠ []

/-- The owner of a complete split gone (R162, R163): released when no share holds a tender, otherwise ownerless. -/
def loseOwner (i : Slot) (s : State) : State :=
  let s := s.modifyTab i fun t => { t with owner := none, claim := none }
  if s.anyTender (s.tab i) then touch i s else releaseSplit i s

end Sys2Proof.Machine
end

