-- ==== Sys2Proof/Machine/Intake.lean ====
section
/-! DEFINITION. The port interface around a request: the frame received, the order of the checks of R173, R176 and R177, the
reply and the notices (R167, R168, R177, R180). -/

namespace Sys2Proof.Machine

/-! ### Receiving (R167, R173, R175) -/

/-- The receiving condition of a port. -/
def State.receiver (s : State) (p : Port) : Receiver :=
  match p with
  | .lane l => (s.port l).receiver
  | .office => s.officeReceiver

def State.setReceiver (s : State) (p : Port) (r : Receiver) : State :=
  match p with
  | .lane l => s.setPort l { s.port l with receiver := r }
  | .office => { s with officeReceiver := r }

/-- The port hunts again: its frame has ended (R173). -/
def huntAgain (p : Port) (s : State) : State := s.setReceiver p .hunting

/-! ### The office's byte transfers (R175) -/

/-- The byte MISO carries: that of the frame in the reply slot at the position reached, 0x00 with the slot empty (R175). -/
def State.misoByte (s : State) : Byte :=
  match s.replySlot with
  | some f => (frameBytes f).getD s.replyPosition 0
  | none => 0

/-- A number of byte transfers of the office port, as the reply slot sees them: the position moves on by as many bytes, and with
the reply's last byte clocked out the slot is empty (R175). -/
def clockReply (n : Nat) (s : State) : State :=
  match s.replySlot with
  | none => s
  | some f =>
    if s.replyPosition + n < (frameBytes f).length then { s with replyPosition := s.replyPosition + n }
    else { s with replySlot := none, replyPosition := 0 }

/-- The byte transfers of a frame of `n` bytes: a lane has none; at the office those after the start byte are still to come when
START_BYTE_RECEIVED has counted that one (R173, R175). -/
def clockFrame (p : Port) (n : Nat) (s : State) : State :=
  match p, s.officeReceiver with
  | .lane _, _ => s
  | .office, .hunting => clockReply n s
  | .office, .inFrame _ => clockReply (n - 1) s

/-- Whether a lane's frame has met the second tick after its start byte (R173); DEDUCED (entry 5): such a frame is discarded
even when its last byte comes before the discard is taken as a step of its own. -/
def overdue (p : Port) (s : State) : Bool :=
  match p with
  | .lane l =>
    match (s.port l).receiver with
    | .hunting => false
    | .inFrame ticks => Config.frameTicks ≤ ticks
  | .office => false

/-- Whether a received frame is not taken for want of room for its reply: six frames in a lane's transmit list (R167), or a
reply in the office's slot (R175). -/
def congested (p : Port) (s : State) : Bool :=
  match p with
  | .lane l => Config.transmitGuard ≤ (s.port l).transmit.length
  | .office => s.replySlot.isSome

/-- A frame dropped: the port hunts again and FRAME_ERROR is raised to it, with the notice of a rise (R173, R180). -/
def dropFrame (p : Port) (s : State) : State :=
  composeNotices none s (raisePort .frameError p (huntAgain p s))

/-- A frame put where a port's replies go: a lane's transmit list, the office's reply slot (R167, R168). -/
def sendFrame (p : Port) (f : Frame) (s : State) : State :=
  match p with
  | .lane l => s.setPort l { s.port l with transmit := (s.port l).transmit ++ [f] }
  | .office => { s with replySlot := some f, replyPosition := 0 }

/-- A reply sent on a port: it carries the request's tag, and its kind is the request's plus 0x80 (R176). -/
def sendReply (p : Port) (tag code : Nat) (r : Reply) (s : State) : State :=
  sendFrame p (.reply tag (code + 0x80) r.status r.body) s

/-- The reply of an answer sent, if it has one. -/
def deliver (p : Port) (tag code : Nat) (a : Answer) : State :=
  match a.2 with
  | some r => sendReply p tag code r a.1
  | none => a.1

/-! ### Handling (R177) -/

/-- Whether a port has an outstanding request (R177, step 1); the office has none (R168). -/
def awaitsReply (p : Port) (s : State) : Bool :=
  match p with
  | .lane l => (s.port l).outstanding.isSome
  | .office => false

/-- Whether the code table and a port's role allow it a kind (R177, step 2). -/
def mayRequest (p : Port) (k : Kind) (s : State) : Bool :=
  match p with
  | .office => (senders k).office
  | .lane l =>
    match (s.port l).role with
    | .off => false
    | .till => (senders k).till
    | .station => (senders k).station || ((senders k).boundStation && (s.port l).bound.isSome)

/-- A received frame of `n` bytes (R167, R173, R175): in reset its bytes are discarded (R186). The office clocks as many bytes of
the reply out, and one that ends with the frame's last byte has made room. Overdue or without room for its reply the frame is
dropped; otherwise the port hunts again and the frame is examined. -/
def receive (p : Port) (n : Nat) (s : State) (examine : State → State) : State :=
  if s.resetPin then s
  else
    let s := clockFrame p n s
    if overdue p s || congested p s then dropFrame p s else examine (huntAgain p s)

/-- A request taken by its owning block: the answer's reply is sent first, the notices of the step follow it (R167). `fresh` is
the lane whose port reset stands inside the step. -/
def conclude (p : Port) (tag : Nat) (k : Kind) (fresh : Option Lane) (before : State) (a : Answer) : State :=
  composeNotices fresh before (deliver p tag (kindCode k) a)

/-- A received request of a kind: dropped for a tag of 0, BAD_FIELD for a body that cannot be read (R176), BUSY for a port with an
outstanding request, UNSUPPORTED for a port that may not send it (R177), and otherwise handed to its owning block. -/
def handle {α : Type} (k : Kind) (p : Port) (tag : Nat) (body : Body α) (fresh : α → State → Option Lane)
    (block : α → State → Answer) (s : State) : State :=
  if tag = 0 then dropFrame p s
  else
    match body with
    | .unread _ => sendReply p tag (kindCode k) ⟨.badField, []⟩ s
    | .fields fields =>
      if awaitsReply p s then sendReply p tag (kindCode k) ⟨.busy, []⟩ s
      else if mayRequest p k s then conclude p tag k (fresh fields s) s (block fields s)
      else sendReply p tag (kindCode k) ⟨.unsupported, []⟩ s

/-- A request from any port that the code table allows it. -/
def serve {α : Type} (k : Kind) (c : Codec α) (p : Port) (tag : Nat) (body : Body α) (block : α → State → Answer)
    (s : State) : Host.Outcome State Fault Refusal :=
  .next (receive p (requestSize c body) s (handle k p tag body (fun _ _ => none) block))

/-- A request of a kind that lane ports alone may send: the office is answered UNSUPPORTED by the code table. -/
def serveLane {α : Type} (k : Kind) (c : Codec α) (p : Port) (tag : Nat) (body : Body α)
    (block : Lane → α → State → Answer) (s : State) : Host.Outcome State Fault Refusal :=
  serve k c p tag body
    (fun fields s =>
      match p with
      | .lane l => block l fields s
      | .office => answer s .unsupported) s

/-- A request of a kind that bound STATION ports alone may send; the block is handed the port's station (R177, section 5.4). -/
def serveStation {α : Type} (k : Kind) (c : Codec α) (p : Port) (tag : Nat) (body : Body α)
    (block : StationNo → α → State → Answer) (s : State) : Host.Outcome State Fault Refusal :=
  serveLane k c p tag body
    (fun l fields s =>
      match (s.port l).bound with
      | some st => block st fields s
      | none => answer s .unsupported) s

/-- A step that no request causes: nothing happens while the part is held in reset (entry 8); otherwise its effect, and the
notices of the rises it causes. -/
def happen (effect : State → State) (s : State) : Host.Outcome State Fault Refusal :=
  .next (if s.resetPin then s else composeNotices none s (effect s))

end Sys2Proof.Machine
end

