-- ==== Sys2Proof/Machine/Approvals.lean ====
section
/-! DEFINITION. The requests of the approval queue: the token, the reading and deciding of entries, results (R110 to R130). -/

namespace Sys2Proof.Machine

/-! ### The token (R111, R112) -/

/-- Whether a lane port may hold the token (R110). -/
def mayHold (e : PortEntry) : Bool := e.role = .till && e.supervisor

/-- PASS_SUPERVISOR (R111). -/
def passSupervisor (p : Port) (target : Nat) (s : State) : Answer :=
  if s.token ≠ p then answer s .notSupervisor
  else
    match fin? 16 target with
    | none => answer s .badField
    | some l =>
      if !mayHold (s.port l) then answer s .badField
      else if p = .lane l then answer s .ok [Field.small (holderCode s.token)]
      else
        let s' := raisePort .tokenTaken p (raisePort .tokenGiven (.lane l) (giveToken (.lane l) s))
        answer (announceQueue s') .ok [Field.small (holderCode (.lane l))]

def execPassSupervisor (p : Port) (tag : Nat) (body : Body Nat) (s : State) : Host.Outcome State Fault Refusal :=
  serve .passSupervisor byteCodec p tag body (passSupervisor p) s

/-- RECLAIM (R112). -/
def reclaim (_ : Unit) (s : State) : Answer :=
  match s.token with
  | .office => answer s .ok [Field.small (holderCode .office)]
  | .lane l =>
    answer (announceQueue (raiseLanes .tokenTaken [l] (giveToken .office s))) .ok [Field.small (holderCode .office)]

def execReclaim (p : Port) (tag : Nat) (body : Body Unit) (s : State) : Host.Outcome State Fault Refusal :=
  serve .reclaim unitCodec p tag body reclaim s

/-! ### Reading the queue (R119) -/

/-- An entry as APPROVAL_LIST shows it: every field of R115 that its kind uses; the new unit price is 0 for a locked port of the
entry's tab (R59, R119). -/
def entryFields (p : Port) (s : State) (e : Entry) : List Field :=
  [Field.small e.number, Field.code (askCode e.ask), Field.small e.requester.val, Field.ident e.tab]
    ++ optField (fun n => [Field.small n]) (askLine e.ask)
    ++ optField (fun n => [Field.small n]) (askShare e.ask)
    ++ optField (fun n => [Field.amount (figure p (s.tabNumbered e.tab) s n)]) (askPrice e.ask)
    ++ [Field.small e.reason, Field.stamp e.queuedAt]

/-- APPROVAL_LIST (R119). -/
def approvalList (p : Port) (start : Nat) (s : State) : Answer :=
  if s.token ≠ p then answer s .notSupervisor
  else if Config.maxApprovalPosition < start then answer s .badField
  else
    let rest := s.approvals.drop start
    answer s .ok
      (Field.number s.approvals.length :: listField (entryFields p s) (rest.take Config.approvalPage)
        ++ optField (fun _ => [Field.small (start + Config.approvalPage)]) rest[Config.approvalPage]?)

def execApprovalList (p : Port) (tag : Nat) (body : Body Nat) (s : State) : Host.Outcome State Fault Refusal :=
  serve .approvalList byteCodec p tag body (approvalList p) s

/-! ### Deciding (R120 to R127) -/

/-- What the reply to a decision carries: number, kind, tab and outcome (R120, R126). -/
def decisionFields (e : Entry) (v : Verdict) : List Field :=
  [Field.small e.number, Field.code (askCode e.ask), Field.ident e.tab, Field.code (verdictCode v)]

/-- APPROVE of an entry: its effect when its precondition holds, STALE otherwise; then the entry is decided (R120). -/
def approveEntry (e : Entry) (s : State) : Answer :=
  match s.findTab e.tab with
  | some i =>
    if askReady i e.ask s then
      answer (decideEntry .approved e (applyAsk i e.ask s)) .ok (decisionFields e .approved)
    else answer (decideEntry .stale e s) .ok (decisionFields e .stale)
  | none => answer (decideEntry .stale e s) .ok (decisionFields e .stale)

/-- APPROVE (R120). -/
def approve (p : Port) (n : Nat) (s : State) : Answer :=
  if s.token ≠ p then answer s .notSupervisor
  else
    match s.findEntry n with
    | none => answer s .noTicket
    | some e => approveEntry e s

def execApprove (p : Port) (tag : Nat) (body : Body Nat) (s : State) : Host.Outcome State Fault Refusal :=
  serve .approve byteCodec p tag body (approve p) s

/-- DENY (R126). -/
def deny (p : Port) (n : Nat) (s : State) : Answer :=
  if s.token ≠ p then answer s .notSupervisor
  else
    match s.findEntry n with
    | none => answer s .noTicket
    | some e => answer (decideEntry .denied e s) .ok (decisionFields e .denied)

def execDeny (p : Port) (tag : Nat) (body : Body Nat) (s : State) : Host.Outcome State Fault Refusal :=
  serve .deny byteCodec p tag body (deny p) s

/-- WITHDRAW (R127). -/
def withdraw (l : Lane) (n : Nat) (s : State) : Answer :=
  match s.findEntry n with
  | none => answer s .noTicket
  | some e =>
    if e.requester ≠ l then answer s .notOwner
    else answer (decideEntry .withdrawn e s) .ok (decisionFields e .withdrawn)

def execWithdraw (p : Port) (tag : Nat) (body : Body Nat) (s : State) : Host.Outcome State Fault Refusal :=
  serveLane .withdraw byteCodec p tag body withdraw s

/-! ### Results (R129, R130) -/

/-- A result as RESULTS shows it (R129). -/
def resultFields (r : Result) : List Field :=
  [Field.small r.number, Field.code (askCode r.ask), Field.ident r.tab]
    ++ optField (fun n => [Field.small n]) (askLine r.ask <|> askShare r.ask)
    ++ [Field.code (verdictCode r.verdict), Field.stamp r.decidedAt]

/-- RESULTS (R130): the list returned, and emptied. -/
def results (l : Lane) (_ : Unit) (s : State) : Answer :=
  answer { s with results := s.results.set l [] } .ok (listField resultFields (s.resultsOf l))

def execResults (p : Port) (tag : Nat) (body : Body Unit) (s : State) : Host.Outcome State Fault Refusal :=
  serveLane .results unitCodec p tag body results s

end Sys2Proof.Machine
end

