-- ==== Sys2Proof/Machine/Catalogue.lean ====
section
/-! DEFINITION. The requests of the catalogue store (R3 to R10, R18). -/

namespace Sys2Proof.Machine

/-! ### Loading and withdrawing items (R6 to R8) -/

/-- The count LOAD_ITEM leaves (R7): 0 when UNLIMITED, the request's count brought into range when LIMITED. -/
def loadedCount (it : Item) (mode : CountMode) (c : Nat) : Nat :=
  match mode with
  | .limited => it.clampCount c
  | .unlimited => 0

/-- Whether LOAD_ITEM reports a clamp (R7). -/
def loadClamps (it : Item) (mode : CountMode) (c : Nat) : Bool :=
  match mode with
  | .limited => it.clampCount c ≠ c
  | .unlimited => false

/-- LOAD_ITEM (R6, R7). -/
def loadItem (f : LoadItemFields) (s : State) : Answer :=
  match fin? 512 f.item, fin? 4 f.taxClass, fin? 8 f.station, fin? 8 f.group, countModeOfCode f.mode with
  | some i, some c, some st, some g, some m =>
    if Config.maxPrice < f.price then answer s .badField
    else
      let old := s.item i
      let it : Item := { old with
        state := .listed, price := f.price, taxClass := c, station := st, group := g, mode := m
        count := loadedCount old m f.count }
      answer (updateItem i it s) (if loadClamps old m f.count then .clamped else .ok) (itemFigures it)
  | _, _, _, _, _ => answer s .badField

def execLoadItem (p : Port) (tag : Nat) (body : Body LoadItemFields) (s : State) : Host.Outcome State Fault Refusal :=
  serve .loadItem loadItemCodec p tag body loadItem s

/-- WITHDRAW_ITEM (R8). -/
def withdrawItem (n : Nat) (s : State) : Answer :=
  match fin? 512 n with
  | none => answer s .badField
  | some i =>
    match (s.item i).state with
    | .absent => answer s .noItem
    | .withdrawn => answer s .ok [Field.code (itemStateCode .withdrawn)]
    | .listed =>
      answer (updateItem i { s.item i with state := .withdrawn } s) .ok [Field.code (itemStateCode .withdrawn)]

def execWithdrawItem (p : Port) (tag : Nat) (body : Body Nat) (s : State) : Host.Outcome State Fault Refusal :=
  serve .withdrawItem halfCodec p tag body withdrawItem s

/-! ### Modifiers, rates, groups (R3 to R5) -/

/-- LOAD_MODIFIER (R3). -/
def loadModifier (f : LoadModifierFields) (s : State) : Answer :=
  match fin? 64 f.code with
  | none => answer s .badField
  | some m =>
    if f.delta < -9999 ∨ 9999 < f.delta then answer s .badField
    else answer { s with modifiers := s.modifiers.set m (some f.delta) } .ok

def execLoadModifier (p : Port) (tag : Nat) (body : Body LoadModifierFields) (s : State) :
    Host.Outcome State Fault Refusal :=
  serve .loadModifier loadModifierCodec p tag body loadModifier s

/-- SET_TAX_RATE (R4). -/
def setTaxRate (f : SetTaxRateFields) (s : State) : Answer :=
  match fin? 4 f.taxClass with
  | none => answer s .badField
  | some c =>
    if Config.maxRate < f.rate then answer s .badField
    else answer { s with rates := s.rates.set c f.rate } .ok

def execSetTaxRate (p : Port) (tag : Nat) (body : Body SetTaxRateFields) (s : State) :
    Host.Outcome State Fault Refusal :=
  serve .setTaxRate setTaxRateCodec p tag body setTaxRate s

/-- SET_GROUP_PRIORITY (R5): every station recomputes its rail, whether or not the value changed. -/
def setGroupPriority (f : SetGroupPriorityFields) (s : State) : Answer :=
  match fin? 8 f.group, priorityOfCode f.priority with
  | some g, some pr => answer (recomputeRails allStations { s with priorities := s.priorities.set g pr }) .ok
  | _, _ => answer s .badField

def execSetGroupPriority (p : Port) (tag : Nat) (body : Body SetGroupPriorityFields) (s : State) :
    Host.Outcome State Fault Refusal :=
  serve .setGroupPriority setGroupPriorityCodec p tag body setGroupPriority s

/-! ### Counts and the out list (R9, R10, R18) -/

/-- Whether a port may set the count of an item (R9, step 3): the office, the token holder, or the STATION port bound to the
item's station. -/
def mayCount (p : Port) (it : Item) (s : State) : Bool :=
  match p with
  | .office => true
  | .lane l => s.token = p || ((s.port l).role = .station && (s.port l).bound = some it.station)

/-- SET_COUNT (R9, R10). -/
def setCount (p : Port) (f : SetCountFields) (s : State) : Answer :=
  match fin? 512 f.item with
  | none => answer s .badField
  | some i =>
    let old := s.item i
    if old.state = .absent then answer s .noItem
    else if mayCount p old s then
      let it : Item := { old with mode := .limited, count := old.clampCount f.count }
      answer (updateItem i it s) (if old.clampCount f.count ≠ f.count then .clamped else .ok) (itemFigures it)
    else answer s .unsupported

def execSetCount (p : Port) (tag : Nat) (body : Body SetCountFields) (s : State) : Host.Outcome State Fault Refusal :=
  serve .setCount setCountCodec p tag body (setCount p) s

/-- The out items not below a number, ascending (R18). -/
def outItems (first : Nat) (s : State) : List ItemNo :=
  (List.finRange 512).filter fun i => first ≤ i.val && (s.item i).out

/-- AVAILABILITY (R18): at most 100 out items, and the next of them when there are more. -/
def availability (first : Nat) (s : State) : Answer :=
  if 511 < first then answer s .badField
  else
    let out := outItems first s
    answer s .ok
      (listField (fun i : ItemNo => [Field.ident i.val]) (out.take Config.availabilityPage)
        ++ optField (fun i : ItemNo => [Field.ident i.val]) out[Config.availabilityPage]?)

def execAvailability (p : Port) (tag : Nat) (body : Body Nat) (s : State) : Host.Outcome State Fault Refusal :=
  serve .availability halfCodec p tag body availability s

end Sys2Proof.Machine
end

