-- ==== Sys2Proof/Machine/Firing.lean ====
section
/-! DEFINITION. FIRE: the lines chosen, their partitions, the tickets cut, placed and created (R66 to R77). -/

namespace Sys2Proof.Machine

/-! ### Lines and partitions (R69 to R71) -/

/-- Whether a group set holds a group; an absent set stands for all groups (R69). -/
def inGroups (gs : Option (List Nat)) (g : GroupNo) : Bool :=
  match gs with
  | none => true
  | some l => l.contains g.val

/-- The lines a FIRE fires, with their line numbers (R69). -/
def firedLines (t : Tab) (gs : Option (List Nat)) : List (Nat × Line) :=
  t.numbered.filter fun q => q.2.state = .entered && inGroups gs q.2.group

/-- Lines of one home station and one group (R70). -/
structure Partition where
  home : StationNo
  group : GroupNo
  lines : List Nat
deriving DecidableEq, Repr

/-- A line put into the partition of its home station and group, a new one at the end when there is none yet. -/
def addToPartition (q : Nat × Line) : List Partition → List Partition
  | [] => [{ home := q.2.station, group := q.2.group, lines := [q.1] }]
  | p :: ps =>
    if p.home = q.2.station ∧ p.group = q.2.group then { p with lines := p.lines ++ [q.1] } :: ps
    else p :: addToPartition q ps

/-- The partitions of the chosen lines, ordered by the lowest line number each contains (R70). -/
def partitions (qs : List (Nat × Line)) : List Partition := qs.foldl (fun ps q => addToPartition q ps) []

/-- A list cut into pieces of at most 8 (R71); `fuel` is at least its length. -/
def cutEights : Nat → List Nat → List (List Nat)
  | 0, _ => []
  | fuel + 1, l =>
    if l = [] then [] else l.take Config.ticketLines :: cutEights fuel (l.drop Config.ticketLines)

/-! ### Placement and room (R72, R73) -/

/-- Whether a station takes tickets (R86). -/
def takesTickets (st : Station) : Bool := st.state ≠ .closed

/-- The target station of a home station, and whether tickets placed there are rerouted; none when they cannot be placed
(R72). -/
def State.target (s : State) (home : StationNo) : Option (StationNo × Bool) :=
  if takesTickets (s.station home) then some (home, false)
  else
    match (s.station home).alternate with
    | some a => if takesTickets (s.station a) then some (a, true) else none
    | none => none

/-- A ticket laid out and not yet created. -/
structure Draft where
  home : StationNo
  group : GroupNo
  station : StationNo
  rerouted : Bool
  lines : List Nat
deriving DecidableEq, Repr

/-- The tickets of a partition at its target, in the order they are cut (R71, R72). -/
def draftsOf (p : Partition) (target : StationNo × Bool) : List Draft :=
  (cutEights p.lines.length p.lines).map fun ls =>
    { home := p.home, group := p.group, station := target.1, rerouted := target.2, lines := ls }

/-- The tickets of a request in firing order (R71), or the home station of the first partition that cannot be placed (R72). -/
def layOut (s : State) : List Partition → Except StationNo (List Draft)
  | [] => .ok []
  | p :: ps =>
    match s.target p.home with
    | none => .error p.home
    | some tg =>
      match layOut s ps with
      | .error h => .error h
      | .ok ds => .ok (draftsOf p tg ++ ds)

/-- The lowest-numbered target station whose queue the request would take past 64 (R73). -/
def overfull (s : State) (ds : List Draft) : Option StationNo :=
  allStations.find? fun i =>
    let placed := (ds.filter fun d => d.station = i).length
    0 < placed && Config.queueSize < (s.station i).queue.length + placed

/-! ### The fire (R74 to R76) -/

/-- The number of the next ticket (R66). -/
def State.nextTicket (s : State) : Nat :=
  firstUnused s.ticketInUse Config.maxTicketNumber Config.maxTicketNumber s.ticketCounter

/-- The late countdown a ticket starts with at a station (R75). -/
def startLate (st : Station) : Option Nat := if st.threshold = 0 then none else some st.threshold

/-- One ENTERED line fired: FIRED with its ticket number, its quantity consumed (R74, R29). -/
def fireLine (i : Slot) (number : Nat) (s : State) (n : Nat) : State :=
  match (s.tab i).line? n with
  | none => s
  | some l =>
    if l.state = .entered then
      let s := s.setItem l.item ((s.item l.item).consume l.quantity)
      s.modifyTab i fun t => t.setLine n { l with state := .fired, ticket := some number }
    else s

/-- One ticket created: numbered (R66), sequenced (R67), put in its station's queue, its lines fired (R74 to R76). -/
def createTicket (i : Slot) (s : State) (d : Draft) : State :=
  let n := s.nextTicket
  let t : Ticket :=
    { number := n, tab := (s.tab i).number, home := d.home, rerouted := d.rerouted, group := d.group, seq := s.fireSeq
      firedAt := s.clock, late := startLate (s.station d.station), lateFlag := false, lines := d.lines }
  let s := { s with ticketCounter := nextNumber Config.maxTicketNumber n, fireSeq := (s.fireSeq + 1) % Config.wrap32 }
  let s := s.modifyStation d.station fun st => { st with queue := st.queue ++ [t] }
  let s := s.modifyTab i fun tab => { tab with live := tab.live + 1 }
  d.lines.foldl (fireLine i n) s

/-- The tickets of a request created in firing order, with their numbers. -/
def createTickets (i : Slot) : List Draft → State → State × List (Nat × StationNo)
  | [], s => (s, [])
  | d :: ds, s =>
    let r := createTickets i ds (createTicket i s d)
    (r.1, (s.nextTicket, d.station) :: r.2)

/-- A FIRE that passes its checks (R74 to R77): tickets created, the rail of each station that received one recomputed once,
TAB_CHANGED raised once. -/
def fireDrafts (i : Slot) (ds : List Draft) (s : State) : Answer :=
  let r := createTickets i ds s
  let s' := recomputeRails (allStations.filter fun st => ds.any fun d => d.station = st) r.1
  answer (touch i s') .ok
    (Field.number ds.length :: listField (fun q : Nat × StationNo => [Field.ident q.1, Field.small q.2.val]) r.2)

/-- Whether a group set is in range (R68, check 4). -/
def groupsOk (gs : Option (List Nat)) : Bool :=
  match gs with
  | none => true
  | some l => l.length ≤ 8 && l.all fun g => g ≤ 7

/-- FIRE (R68). -/
def fire (l : Lane) (f : FireFields) (s : State) : Answer :=
  withTab (.lane l) f.tab s fun i s =>
    let t := s.tab i
    if !unlockedTill l t s then answer s .locked
    else if t.state ≠ .opened then answer s (notOpen t.state)
    else if !groupsOk f.groups then answer s .badField
    else
      let qs := firedLines t f.groups
      if qs = [] then answer s .ok [Field.number 0, Field.listCount 0]
      else
        match layOut s (partitions qs) with
        | .error home => answer s .noStation [Field.small home.val]
        | .ok ds =>
          if s.poolFree < ds.length then answer s .ticketsFull [Field.number ds.length, Field.number s.poolFree]
          else
            match overfull s ds with
            | some st => answer s .queueFull [Field.small st.val, Field.number (s.station st).queue.length]
            | none => fireDrafts i ds s

def execFire (p : Port) (tag : Nat) (body : Body FireFields) (s : State) : Host.Outcome State Fault Refusal :=
  serveLane .fire fireCodec p tag body fire s

end Sys2Proof.Machine
end

