-- ==== Sys2Proof/Machine/Frames.lean ====
section
/-! DEFINITION. The steps of the frame receivers and transmitters that are no request: frames begun, dropped, refused, sent
(R167, R173 to R176). A step whose event cannot occur as it is given changes nothing; DESIGN CHOICE (entry 4), safe. -/

namespace Sys2Proof.Machine

/-- A frame whose `n` bytes have been clocked, dropped where its event can occur (R175). -/
def dropWhen (occurs : State → Bool) (p : Port) (n : Nat) (s : State) : Host.Outcome State Fault Refusal :=
  let s' := clockFrame p n s
  .next (if s.resetPin then s else if occurs s' then dropFrame p s' else s)

/-- The byte transfers that come with a start byte: its own and those of the bytes discarded before it. -/
def startTransfers : StartByte → Nat
  | .lane _ => 1
  | .office skipped => skipped + 1

/-- START_BYTE_RECEIVED (R173): a hunting port discards the bytes before it and is in a frame; in a frame, a byte of that value
begins nothing. The office clocks as many bytes of the reply out (R175). -/
def beginFrame (b : StartByte) (s : State) : State :=
  match s.receiver (startPort b) with
  | .hunting => (clockFrame (startPort b) (startTransfers b) s).setReceiver (startPort b) (.inFrame 0)
  | .inFrame _ => s

def execStartByteReceived (b : StartByte) (s : State) : Host.Outcome State Fault Refusal :=
  .next (if s.resetPin then s else beginFrame b s)

/-- FRAME_TIMEOUT (R173): a lane in a frame that has met the second tick after its start byte. -/
def execFrameTimeout (l : Lane) (s : State) : Host.Outcome State Fault Refusal :=
  dropWhen (overdue (.lane l)) (.lane l) 0 s

/-- LENGTH_ERROR (R173): a length outside 2–250, the second byte of its frame and the last. -/
def execLengthError (p : Port) (length : Nat) (s : State) : Host.Outcome State Fault Refusal :=
  dropWhen (fun _ => !lengthOk length) p 2 s

/-- Whether bytes are those of a complete frame from its length byte to its last body byte (R172). -/
def countedBytes (bytes : List Byte) : Bool :=
  match bytes with
  | [] => false
  | n :: rest => lengthOk n.toNat && rest.length = n.toNat

/-- CRC_MISMATCH (R173, R174): a complete frame whose CRC is not the one worked out over its bytes. -/
def execCrcMismatch (p : Port) (bytes : List Byte) (crc : BitVec 16) (s : State) : Host.Outcome State Fault Refusal :=
  dropWhen (fun _ => countedBytes bytes && crc16 bytes ≠ crc) p (frameSize (bytes.length - 1)) s

/-- CS_DEASSERTED (R173, R175): the frame that the office is in is discarded before its last CRC byte. The row does not carry how
many bytes came after the start byte: a free value, at most 252 (entry 25). -/
def discardFrame (s : State) : State :=
  match s.officeReceiver with
  | .hunting => s
  | .inFrame _ => dropFrame .office (clockReply (Config.transfers s.draws % 253) { s with draws := s.draws + 1 })

def execCsDeasserted (s : State) : Host.Outcome State Fault Refusal := .next (if s.resetPin then s else discardFrame s)

/-- BAD_TAG_OR_KIND (R176): a received frame with tag 0 or a kind of 0x80 or above. -/
def execBadTagOrKind (p : Port) (tag : Nat) (k : KindAndBody) (s : State) : Host.Outcome State Fault Refusal :=
  dropWhen (fun _ => tag = 0 || 0x80 ≤ k.kind) p (frameSize (2 + k.body.length)) s

/-- UNKNOWN_KIND (R176): a received frame whose kind, below 0x80, the code table does not have, is answered UNSUPPORTED with an
empty body. -/
def execUnknownKind (p : Port) (tag : Nat) (k : KindAndBody) (s : State) : Host.Outcome State Fault Refusal :=
  .next
    (if tag ≠ 0 ∧ k.kind < 0x80 ∧ kindOfCode k.kind = none then
      receive p (frameSize (2 + k.body.length)) s (sendReply p tag k.kind ⟨.unsupported, []⟩)
    else s)

/-- TRANSMIT_LIST_FULL (R167): a frame received while the lane's transmit list holds six frames or more. -/
def execTransmitListFull (l : Lane) (s : State) : Host.Outcome State Fault Refusal :=
  dropWhen (congested (.lane l)) (.lane l) 0 s

/-- The bytes that a request at the office can still bring while the last byte of a reply is not clocked out: the fewest, and how
many more; none when even the shortest request, of 6 bytes, clocks it out (R172, R175). -/
def overrunBytes (s : State) : Option (Nat × Nat) :=
  match s.replySlot with
  | none => none
  | some f =>
    let counted := if s.officeReceiver = .hunting then 0 else 1
    let left := (frameBytes f).length - s.replyPosition
    if 7 ≤ left + counted then some (6 - counted, min (254 - counted) (left - 1) - (6 - counted)) else none

/-- OFFICE_REQUEST_OVERRUN (R175): a request received while the reply slot still holds part of a reply, which is kept. The row does
not carry the request's bytes: how many there were is a free value, at most as many as leave part of the reply (entry 25). -/
def overrun (s : State) : State :=
  match overrunBytes s with
  | none => s
  | some (least, more) =>
    dropFrame .office (clockReply (least + Config.transfers s.draws % (more + 1)) { s with draws := s.draws + 1 })

def execOfficeRequestOverrun (s : State) : Host.Outcome State Fault Refusal := .next (if s.resetPin then s else overrun s)

/-- FRAME_SENT (R167): the frame being sent leaves the transmit list, and the next begins. -/
def frameGone (l : Lane) (s : State) : State := s.setPort l { s.port l with transmit := (s.port l).transmit.drop 1 }

def execFrameSent (l : Lane) (s : State) : Host.Outcome State Fault Refusal :=
  .next (if s.resetPin then s else frameGone l s)

/-- The bytes that a lane sends next: those of the first frame of its transmit list (R167, R172). -/
def State.txBytes (s : State) (l : Lane) : List Byte := ((s.port l).transmit.head?.map frameBytes).getD []

/-- REPLY_CLOCKED_OUT (R175): the byte transfers up to the last byte of the reply, with which the reply slot becomes empty. -/
def replyGone (s : State) : State := { s with replySlot := none, replyPosition := 0 }

def execReplyClockedOut (s : State) : Host.Outcome State Fault Refusal := .next (if s.resetPin then s else replyGone s)

end Sys2Proof.Machine
end

