-- ==== Sys2Proof/Machine/Ports.lean ====
section
/-! DEFINITION. The requests of the port interface and the venue clock: SET_PORT with its port reset, EVENTS, SET_MASK,
SET_CLOCK and STATUS (R167 to R171, R182 to R185). -/

namespace Sys2Proof.Machine

/-! ### The token's return (R113) -/

/-- The token returned to the office without a request: TOKEN_GIVEN to the office, and APPROVAL_WAITING when entries wait
(R110, R113). -/
def returnToken (s : State) : State := announceQueue (raiseOffice .tokenGiven (giveToken .office s))

/-! ### The port reset (R170) -/

/-- A lane taken out of every tab's unlock set and follower list (R49, R61). -/
def leaveTabs (l : Lane) (s : State) : State :=
  { s with tabs := tableOf fun i =>
      { s.tab i with
        unlocked := (s.tab i).unlocked.filter fun x => x ≠ l
        followers := (s.tab i).followers.filter fun x => x ≠ l } }

/-- A lane's settle ownership of the tab in a slot cleared: during the computation the tab stays SETTLING and ownerless (R152),
after it as a lapse without CLAIM_LAPSED (R163). DEDUCED (entry 16): the first raises TAB_CHANGED too, as R170 lists for an
ownerless tab. -/
def disown (l : Lane) (s : State) (i : Slot) : State :=
  if (s.tab i).owner = some l then
    if (s.tab i).splitComplete then loseOwner i s
    else touch i (s.modifyTab i fun t => { t with owner := none, claim := none })
  else s

/-- A lane no longer the bound port of any station; everything else in a station record is kept (R87). -/
def unbind (l : Lane) (s : State) : State :=
  { s with stations := tableOf fun i =>
      { s.station i with port := if (s.station i).port = some l then none else (s.station i).port } }

/-- The entry of a port as a port reset leaves it: events and outstanding request gone, the mask full, no bound station, the
frame being sent kept, hunting; role and flags are left (R170). DEDUCED (entry 11): the frame being sent is the first of the
transmit list. -/
def PortEntry.cleared (e : PortEntry) : PortEntry :=
  { e with
    bound := none, events := 0, mask := BitVec.allOnes 12, outstanding := none, transmit := e.transmit.take 1
    receiver := .hunting }

/-- A port reset of a lane port (R170). DESIGN CHOICE (entry 28), unsafe: where it gives up several tabs, the tab in the lower slot
goes first, which orders the STALE results of their UNDO_TENDER entries. The event set and the result list are emptied last, so
that nothing the reset itself causes stays in them; DEDUCED (entry 17). -/
def resetPort (l : Lane) (s : State) : State :=
  let s := leaveTabs l (unbind l s)
  let s := (List.finRange 128).foldl (disown l) s
  let s := if s.token = .lane l then returnToken s else s
  let s := { s with results := s.results.set l [] }
  s.setPort l (s.port l).cleared

/-! ### Binding (R88) -/

/-- A station bound to a port: the two records name one another, the last reported rail is both places absent, and the rail is
recomputed (R88). -/
def bindStation (l : Lane) (st : StationNo) (s : State) : State :=
  let s := s.modifyStation st fun x => { x with port := some l, rail := (none, none) }
  recomputeRail st (s.setPort l { s.port l with bound := some st })

/-! ### SET_PORT (R169, R171) -/

/-- The role and station of a SET_PORT, when they pass its checks (R169, steps 1 to 3). -/
def standing? (f : SetPortFields) : Option (Role × Option StationNo) :=
  match roleOfCode f.role, f.station with
  | some .off, none => some (.off, none)
  | some .till, none => some (.till, none)
  | some .station, some n => (fin? 8 n).map fun st => (.station, some st)
  | _, _ => none

/-- Whether a SET_PORT is a change of standing (R169). -/
def changesStanding (r : Role) (st : Option StationNo) (e : PortEntry) : Bool :=
  r ≠ e.role || (r = .station && st ≠ e.bound)

/-- The flags of a SET_PORT applied; supervisor-capable is stored as no with role OFF or STATION (R169, R171). -/
def PortEntry.withFlags (f : SetPortFields) (r : Role) (e : PortEntry) : PortEntry :=
  { e with role := r, supervisor := f.supervisor && r = .till, notices := f.notices }

/-- A port entry as the reply to SET_PORT shows it: the fields of R167 without event set and transmit list (R169). -/
def portFields (e : PortEntry) : List Field :=
  [Field.code (roleCode e.role)] ++ optField (fun st : StationNo => [Field.small st.val]) e.bound
    ++ [Field.flag e.supervisor, Field.flag e.notices, Field.events e.mask]
    ++ optField (fun q : Nat × Kind => [Field.small q.1, Field.code (kindCode q.2)]) e.outstanding

/-- The role and flags of a request applied to a port. -/
def applyFlags (l : Lane) (f : SetPortFields) (r : Role) (s : State) : State := s.setPort l ((s.port l).withFlags f r)

/-- A SET_PORT that keeps the standing: the flags replaced, and the token returned when its holder loses supervisor-capable
(R169, R113): TOKEN_TAKEN to the former holder besides. -/
def keepStanding (l : Lane) (f : SetPortFields) (r : Role) (s : State) : State :=
  let s' := applyFlags l f r s
  if s'.token = .lane l ∧ (s'.port l).supervisor = false then raiseLanes .tokenTaken [l] (returnToken s') else s'

/-- A change of standing: the port reset, then the role and flags; a station that has another bound port refuses (R171). DESIGN
CHOICE (entry 30), unsafe: the flags are in force when the binding raises RAIL_CHANGED, so its notice goes by the new
notices-enabled flag. -/
def changeStanding (l : Lane) (f : SetPortFields) (r : Role) (st : Option StationNo) (s : State) : Status × State :=
  let s := resetPort l s
  match st with
  | none => (.ok, applyFlags l f r s)
  | some n =>
    if (s.station n).port.isSome then (.stationBusy, s)
    else (.ok, bindStation l n (applyFlags l f r s))

/-- SET_PORT (R169 to R171). -/
def setPortRequest (f : SetPortFields) (s : State) : Answer :=
  match fin? 16 f.port, standing? f with
  | some l, some (r, st) =>
    if changesStanding r st (s.port l) then
      let q := changeStanding l f r st s
      answer q.2 q.1 (portFields (q.2.port l))
    else
      let s' := keepStanding l f r s
      answer s' .ok (portFields (s'.port l))
  | _, _ => answer s .badField

/-- The lane whose port reset stands inside a SET_PORT, if there is one. -/
def resetLane (f : SetPortFields) (s : State) : Option Lane :=
  match fin? 16 f.port, standing? f with
  | some l, some (r, st) => if changesStanding r st (s.port l) then some l else none
  | _, _ => none

def execSetPort (p : Port) (tag : Nat) (body : Body SetPortFields) (s : State) : Host.Outcome State Fault Refusal :=
  .next (receive p (requestSize setPortCodec body) s (handle .setPort p tag body resetLane setPortRequest))

/-! ### EVENTS and SET_MASK (R182, R183) -/

/-- EVENTS (R182): the event set and the mask returned, the set emptied. -/
def events (p : Port) (_ : Unit) (s : State) : Answer :=
  match p with
  | .lane l =>
    let e := s.port l
    answer (s.setPort l { e with events := 0 }) .ok [Field.events e.events, Field.events e.mask]
  | .office =>
    answer { s with officeEvents := 0 } .ok [Field.events s.officeEvents, Field.events s.officeMask]

def execEvents (p : Port) (tag : Nat) (body : Body Unit) (s : State) : Host.Outcome State Fault Refusal :=
  serve .events unitCodec p tag body (events p) s

/-- SET_MASK (R183): bits 12 to 15 are stored as 0. -/
def setMask (p : Port) (mask : Nat) (s : State) : Answer :=
  let m : EventSet := BitVec.ofNat 12 mask
  match p with
  | .lane l => answer (s.setPort l { s.port l with mask := m }) .ok [Field.events m]
  | .office => answer { s with officeMask := m } .ok [Field.events m]

def execSetMask (p : Port) (tag : Nat) (body : Body Nat) (s : State) : Host.Outcome State Fault Refusal :=
  serve .setMask halfCodec p tag body (setMask p) s

/-! ### SET_CLOCK and STATUS (R184, R185) -/

/-- SET_CLOCK (R184); the field has four bytes (entry 23). -/
def setClock (value : Nat) (s : State) : Answer :=
  answer { s with clock := value % Config.wrap32 } .ok [Field.stamp (value % Config.wrap32)]

def execSetClock (p : Port) (tag : Nat) (body : Body Nat) (s : State) : Host.Outcome State Fault Refusal :=
  serve .setClock wordCodec p tag body setClock s

/-- What STATUS carries of one station (R185). -/
def stationStatus (s : State) (st : StationNo) : List Field :=
  let x := s.station st
  [Field.code (stationStateCode x.state), Field.flag x.port.isSome, Field.number x.queue.length,
    Field.number (x.queue.filter (s.eligible st)).length, Field.flag x.inWork.isSome, Field.number x.stack.length]

/-- The number of tabs in states other than FREE. -/
def State.tabCount (s : State) : Nat := ((List.finRange 128).filter fun i => (s.tab i).state ≠ .free).length

/-- STATUS (R185). -/
def status (_ : Unit) (s : State) : Answer :=
  answer s .ok
    ([Field.stamp s.clock, Field.number s.tabCount, Field.number s.occupancy] ++ allStations.flatMap (stationStatus s)
      ++ [Field.number s.approvals.length, Field.number s.freeShareCount, Field.flag s.computing.isSome,
        Field.number s.waiting.length, Field.number s.closeQueue.length, Field.small (holderCode s.token)])

def execStatus (p : Port) (tag : Nat) (body : Body Unit) (s : State) : Host.Outcome State Fault Refusal :=
  serve .status unitCodec p tag body status s

end Sys2Proof.Machine
end

