-- ==== Sys2Proof/Machine/Power.lean ====
section
/-! DEFINITION. Power, reset and the 1-second tick (R106, R161, R173, R184, R186). -/

namespace Sys2Proof.Machine

/-! ### Device reset (R186) -/

/-- A device reset: every block at its reset values, no event raised and no notice sent. The RESET pin is an input and keeps its
level; the commands that wait and the count of free values are the model's own (entries 1 and 25). -/
def deviceReset (s : State) : State :=
  { State.reset with resetPin := s.resetPin, draws := s.draws, pending := s.pending }

/-- POWER_ON (R186). -/
def execPowerOn (s : State) : Host.Outcome State Fault Refusal := .next (deviceReset s)

/-- RESET_PIN_ASSERTED (R186): the part in reset, every receiver hunting. DEDUCED (entry 8), unsafe: the blocks stand at their
reset values while the pin is held, and the release is a device reset again. -/
def execResetPinAsserted (s : State) : Host.Outcome State Fault Refusal :=
  .next { deviceReset s with resetPin := true }

/-- RESET_PIN (R186): the pin released, a device reset. -/
def execResetPin (s : State) : Host.Outcome State Fault Refusal := .next { deviceReset s with resetPin := false }

/-- RESET (R186): a device reset with no reply. -/
def resetRequest (_ : Unit) (s : State) : Answer := (deviceReset s, none)

def execReset (p : Port) (tag : Nat) (body : Body Unit) (s : State) : Host.Outcome State Fault Refusal :=
  serve .reset unitCodec p tag body resetRequest s

/-! ### The tick (R184) -/

/-- A countdown that is present reduced by one; at 0 it stays until its expiry is taken (entry 5). -/
def countDown (c : Option Nat) : Option Nat := c.map fun n => n - 1

/-- A lane's receiver after a tick: a frame in progress has met one tick more (R173). -/
def Receiver.tick : Receiver → Receiver
  | .hunting => .hunting
  | .inFrame n => .inFrame (n + 1)

/-- The 1-second tick: the clock one on, every late countdown, claim countdown and frame limit one down (R106, R161, R173,
R184). -/
def tick (s : State) : State :=
  { s.mapLive (fun t => { t with late := countDown t.late }) with
    clock := (s.clock + 1) % Config.wrap32
    tabs := tableOf fun i => { s.tab i with claim := countDown (s.tab i).claim }
    ports := tableOf fun l => { s.port l with receiver := (s.port l).receiver.tick } }

/-- SECOND_TICK (R184). -/
def execSecondTick (s : State) : Host.Outcome State Fault Refusal := .next (if s.resetPin then s else tick s)

end Sys2Proof.Machine
end

