-- ==== Sys2Proof/Machine/Tabs.lean ====
section
/-! DEFINITION. The requests of the tab table: opening, viewing and changing tabs, followers and the service rate
(R25 to R47). -/

namespace Sys2Proof.Machine

/-! ### OPEN_TAB (R25, R26) -/

/-- Whether a tab number is held (R21). -/
def State.tabHeld (s : State) (n : Nat) : Bool := (List.finRange 128).any fun i => s.bears i n

/-- The number of the next tab (R25). -/
def State.nextTabNumber (s : State) : Nat :=
  firstUnused s.tabHeld Config.maxTabNumber Config.maxTabNumber s.tabCounter

/-- The lowest-indexed FREE slot (R26). -/
def State.freeSlot (s : State) : Option Slot := (List.finRange 128).find? fun i => (s.tab i).state = .free

/-- The record of a tab just opened (R26). -/
def openedTab (number : Nat) (l : Lane) (f : OpenTabFields) (clock : Nat) : Tab :=
  { Tab.blank with
    number := number, state := .opened, opener := some l, openedAt := clock, service := f.service, pin := f.pin
    unlocked := [l], followers := [l] }

/-- Whether an optional PIN is in range. -/
def pinOk (pin : Option Nat) : Bool :=
  match pin with
  | none => true
  | some n => n ≤ Config.maxPin

/-- OPEN_TAB (R26). -/
def openTab (l : Lane) (f : OpenTabFields) (s : State) : Answer :=
  match s.freeSlot with
  | none => answer s .noTabSlot
  | some i =>
    if Config.maxRate < f.service || !pinOk f.pin then answer s .badField
    else
      let n := s.nextTabNumber
      answer { s.setTab i (openedTab n l f s.clock) with tabCounter := nextNumber Config.maxTabNumber n } .ok
        [Field.ident n]

def execOpenTab (p : Port) (tag : Nat) (body : Body OpenTabFields) (s : State) : Host.Outcome State Fault Refusal :=
  serveLane .openTab openTabCodec p tag body openTab s

/-! ### TAB_VIEW (R32, R33) -/

/-- The tab total of a complete split (R33). -/
def Tab.total? (t : Tab) : Option Nat := t.split.bind fun r => r.totals.map Totals.total

/-- The header of a TAB_VIEW reply (R33); money figures are 0 for a locked port (R59). -/
def tabHeader (p : Port) (t : Tab) (s : State) : List Field :=
  [Field.ident t.number, Field.code (tabStateCode t.state), Field.small (t.opener.elim 0 Fin.val), Field.stamp t.openedAt]
    ++ optField (fun n => [Field.stamp n]) t.closedAt
    ++ [Field.rate (figure p t s t.service), Field.flag t.pin.isSome, Field.flag (t.wrongTries = Config.lockoutTries),
      Field.amount (figure p t s t.base)]
    ++ optField (fun n => [Field.amount (figure p t s n)]) t.total?
    ++ [Field.flag t.owner.isSome, Field.number t.live, Field.number t.lines.length]

/-- One line of a TAB_VIEW page: every field of R27 and its amount (R33). -/
def lineFields (p : Port) (t : Tab) (s : State) (q : Nat × Line) : List Field :=
  [Field.small q.1, Field.ident q.2.item.val, Field.small q.2.quantity, Field.small q.2.seat]
    ++ listField (fun m => [Field.small m]) q.2.mods
    ++ [Field.amount (figure p t s q.2.price), Field.small q.2.taxClass.val, Field.small q.2.station.val,
      Field.small q.2.group.val, Field.code (lineStateCode q.2.state), Field.flag q.2.comped]
    ++ optField (fun n => [Field.small n]) q.2.pending
    ++ optField (fun n => [Field.ident n]) q.2.ticket
    ++ [Field.amount (figure p t s q.2.amount)]

/-- TAB_VIEW (R32): the header, at most 6 lines from the first line number, and the next line's number. -/
def tabView (p : Port) (f : TabPageFields) (s : State) : Answer :=
  withTab p f.tab s fun i s =>
    if f.first < 1 ∨ Config.maxLines < f.first then answer s .badField
    else
      let t := s.tab i
      let rest := t.numbered.drop (f.first - 1)
      answer s .ok
        (tabHeader p t s ++ listField (lineFields p t s) (rest.take Config.tabPage)
          ++ optField (fun q : Nat × Line => [Field.small q.1]) rest[Config.tabPage]?)

def execTabView (p : Port) (tag : Nat) (body : Body TabPageFields) (s : State) : Host.Outcome State Fault Refusal :=
  serve .tabView tabPageCodec p tag body (tabView p) s

/-! ### ADD_LINE (R28, R34, R35) -/

/-- The modifier deltas of a list of codes; none when a code is above 63 or its record absent (R34, check 6). -/
def State.deltas (s : State) (mods : List Nat) : Option (List Int) :=
  mods.mapM fun c => (fin? 64 c).bind fun m => s.modifiers.get m

/-- The price and its modifier deltas added up (R28). -/
def rawPrice (price : Nat) (deltas : List Int) : Int := (price : Int) + deltas.sum

/-- A price brought into 0–99,999 (R28). -/
def clampPrice (p : Int) : Nat := min p.toNat Config.maxPrice

/-- Whether a quantity passes the availability check (R11), and the figure that goes back with a SOLD_OUT. -/
def Item.room (it : Item) : Nat :=
  match it.mode with
  | .limited => it.count - it.reserved
  | .unlimited => Config.maxCount - it.reserved

/-- The quantity, seat and modifier deltas of an ADD_LINE, when all are in range (R34, check 6). -/
def lineOperands (f : AddLineFields) (s : State) : Option (Nat × Nat × List Int) :=
  match f.quantity, f.seat, s.deltas f.mods with
  | some q, some seat, some ds =>
    if 1 ≤ q ∧ q ≤ 99 ∧ seat ≤ 24 ∧ f.mods.length ≤ 4 then some (q, seat, ds) else none
  | _, _, _ => none

/-- The line record of an ADD_LINE (R35). -/
def enteredLine (i : ItemNo) (it : Item) (q seat price : Nat) (mods : List Nat) : Line :=
  { item := i, quantity := q, seat := seat, mods := mods, price := price, taxClass := it.taxClass, station := it.station
    group := it.group, state := .entered, comped := false, pending := none, ticket := none }

/-- The changes of an ADD_LINE that passes its checks (R35). -/
def enterLine (i : Slot) (line : Line) (s : State) : State :=
  let it := (s.item line.item).reserve line.quantity
  touch i (updateItem line.item it
    (s.modifyTab i fun t => { t with lines := t.lines ++ [line], base := t.base + line.amount }))

/-- ADD_LINE (R34, R35). -/
def addLine (l : Lane) (f : AddLineFields) (s : State) : Answer :=
  withTab (.lane l) f.tab s fun i s =>
    let t := s.tab i
    if !unlockedTill l t s then answer s .locked
    else if t.state ≠ .opened then answer s (notOpen t.state)
    else if Config.maxLines ≤ t.lines.length then answer s .lineLimit
    else
      match fin? 512 f.item with
      | none => answer s .badField
      | some n =>
        let it := s.item n
        if it.state ≠ .listed then answer s .noItem
        else
          match lineOperands f s with
          | none => answer s .badField
          | some (q, seat, ds) =>
            if it.room < q then answer s .soldOut [Field.available (some it.room)]
            else
              let raw := rawPrice it.price ds
              let line := enteredLine n it q seat (clampPrice raw) f.mods
              if Config.maxBase < t.base + line.amount then answer s .tabLimit
              else
                answer (enterLine i line s) (if raw = (line.price : Int) then .ok else .clamped)
                  [Field.small (t.lines.length + 1), Field.amount line.price, Field.amount line.amount,
                    Field.available (it.reserve q).available]

def execAddLine (p : Port) (tag : Nat) (body : Body AddLineFields) (s : State) : Host.Outcome State Fault Refusal :=
  serveLane .addLine addLineCodec p tag body addLine s

/-! ### VOID_LINE (R36 to R41) -/

/-- A void of an ENTERED line (R37). -/
def strikeEntered (i : Slot) (n : Nat) (l : Line) (s : State) : State :=
  touch i (updateItem l.item ((s.item l.item).release l.quantity) (s.modifyTab i fun t => t.voidLine n l))

/-- The fields of a VOID_LINE reply: the line number and the line's state (R40). -/
def voidFields (n : Nat) (st : LineState) : List Field := [Field.small n, Field.code (lineStateCode st)]

/-- The fields of a VOID_LINE refused before a line was found: the line number, and no state (R40). DESIGN CHOICE (entry 14),
unsafe: the state is left out, with no presence byte. -/
def unfoundFields (n : Nat) : List Field := [Field.small n]

/-- VOID_LINE (R36): ENTERED by R37, FIRED on a QUEUED ticket by R38, FIRED on a ticket in work or set aside by R39. -/
def voidLine (l : Lane) (f : VoidLineFields) (s : State) : Answer :=
  withTab (missing := unfoundFields f.line) (.lane l) f.tab s fun i s =>
    let t := s.tab i
    if !unlockedTill l t s then answer s .locked (unfoundFields f.line)
    else if t.state ≠ .opened then answer s (notOpen t.state) (unfoundFields f.line)
    else
      match t.line? f.line with
      | none => answer s .badField (unfoundFields f.line)
      | some line =>
        if line.pending.isSome then answer s .alreadyPending (voidFields f.line line.state)
        else
          match line.state with
          | .served => answer s .wrongState (voidFields f.line .served)
          | .voided => answer s .wrongState (voidFields f.line .voided)
          | .entered => answer (strikeEntered i f.line line s) .ok (voidFields f.line .voided)
          | .fired =>
            match s.ticketOf line with
            | some (st, .queued, tk) => answer (pullBack i f.line line st tk s) .ok (voidFields f.line .voided)
            | some _ =>
              supervise l i (.voidFired f.line) 0 s
                (answer (applyVoidFired i f.line s) .ok (voidFields f.line .voided))
                (answer s .approvalsFull (voidFields f.line .fired))
                (fun n => voidFields f.line .fired ++ [Field.small n])
            | none => answer s .wrongState (voidFields f.line .fired)

def execVoidLine (p : Port) (tag : Nat) (body : Body VoidLineFields) (s : State) : Host.Outcome State Fault Refusal :=
  serveLane .voidLine voidLineCodec p tag body voidLine s

/-! ### COMP_LINE and OVERRIDE_PRICE (R42 to R44) -/

/-- The checks that COMP_LINE and OVERRIDE_PRICE share (R42, steps 2 to 6); `fieldsOk` is what step 4 asks besides the line. -/
def withOpenLine (l : Lane) (i : Slot) (n : Nat) (fieldsOk : Bool) (s : State) (k : Line → Answer) : Answer :=
  let t := s.tab i
  if !unlockedTill l t s then answer s .locked
  else if t.state ≠ .opened then answer s (notOpen t.state)
  else
    match t.line? n with
    | none => answer s .badField
    | some line =>
      if !fieldsOk then answer s .badField
      else if line.pending.isSome then answer s .alreadyPending
      else if line.state = .voided then answer s .wrongState
      else k line

/-- COMP_LINE (R42, R44). -/
def compLine (l : Lane) (f : CompLineFields) (s : State) : Answer :=
  withTab (.lane l) f.tab s fun i s =>
    withOpenLine l i f.line (f.reason ≤ Config.maxReason) s fun line =>
      if line.comped then answer s .ok
      else
        supervise l i (.comp f.line) f.reason s (answer (applyComp i f.line s) .ok) (answer s .approvalsFull)
          (fun n => [Field.small n])

def execCompLine (p : Port) (tag : Nat) (body : Body CompLineFields) (s : State) : Host.Outcome State Fault Refusal :=
  serveLane .compLine compLineCodec p tag body compLine s

/-- OVERRIDE_PRICE (R43, R44): the new price is brought into range, and the base it would give is checked first. -/
def overridePrice (l : Lane) (f : OverridePriceFields) (s : State) : Answer :=
  withTab (.lane l) f.tab s fun i s =>
    withOpenLine l i f.line (f.reason ≤ Config.maxReason && f.price.isSome) s fun line =>
      let asked := f.price.getD 0
      let price := min asked Config.maxPrice
      if Config.maxBase < (s.tab i).newBase line price ∧ line.comped = false then answer s .tabLimit
      else
        supervise l i (.price f.line price) f.reason s
          (answer (applyPrice i f.line price s) (if price ≠ asked then .clamped else .ok)) (answer s .approvalsFull)
          (fun n => [Field.small n, Field.amount price, Field.flag (price ≠ asked)])

def execOverridePrice (p : Port) (tag : Nat) (body : Body OverridePriceFields) (s : State) :
    Host.Outcome State Fault Refusal :=
  serveLane .overridePrice overridePriceCodec p tag body overridePrice s

/-! ### Followers (R45) -/

/-- FOLLOW (R45). -/
def follow (l : Lane) (n : Nat) (s : State) : Answer :=
  withTab (.lane l) n s fun i s =>
    let t := s.tab i
    if t.followers.contains l then answer s .ok
    else if Config.maxFollowers ≤ t.followers.length then answer s .followersFull
    else answer (s.setTab i { t with followers := t.followers ++ [l] }) .ok

def execFollow (p : Port) (tag : Nat) (body : Body Nat) (s : State) : Host.Outcome State Fault Refusal :=
  serveLane .follow halfCodec p tag body follow s

/-- UNFOLLOW (R45). -/
def unfollow (l : Lane) (n : Nat) (s : State) : Answer :=
  withTab (.lane l) n s fun i s =>
    let t := s.tab i
    answer (s.setTab i { t with followers := t.followers.filter fun x => x ≠ l }) .ok

def execUnfollow (p : Port) (tag : Nat) (body : Body Nat) (s : State) : Host.Outcome State Fault Refusal :=
  serveLane .unfollow halfCodec p tag body unfollow s

/-! ### SET_SERVICE (R47) -/

/-- SET_SERVICE (R47). -/
def setService (p : Port) (f : SetServiceFields) (s : State) : Answer :=
  withTab p f.tab s fun i s =>
    let t := s.tab i
    if p ≠ .office ∧ s.token ≠ p then answer s .notSupervisor
    else if lockedPort p t s then answer s .locked
    else if t.state ≠ .opened then answer s (notOpen t.state)
    else if Config.maxRate < f.rate then answer s .badField
    else answer (touch i (s.setTab i { t with service := f.rate })) .ok

def execSetService (p : Port) (tag : Nat) (body : Body SetServiceFields) (s : State) :
    Host.Outcome State Fault Refusal :=
  serve .setService setServiceCodec p tag body (setService p) s

end Sys2Proof.Machine
end

