-- ==== Sys2Proof/Machine/Protection.lean ====
section
/-! DEFINITION. The requests of tab protection (R52 to R57). -/

namespace Sys2Proof.Machine

/-- A lane joined to a set of lanes; a lane already in it changes nothing (R52). -/
def joinSet (l : Lane) (ls : List Lane) : List Lane := if ls.contains l then ls else ls ++ [l]

/-- What an UNLOCK reply carries: the wrong-try count after the request and whether the tab has a PIN (R52). -/
def unlockFields (t : Tab) : List Field := [Field.number t.wrongTries, Field.flag t.pin.isSome]

/-- UNLOCK (R52, R53). -/
def unlock (l : Lane) (f : TabPinFields) (s : State) : Answer :=
  withTab (.lane l) f.tab s fun i s =>
    let t := s.tab i
    match f.pin with
    | none => answer s .badField
    | some tried =>
      if Config.maxPin < tried then answer s .badField
      else
        match t.pin with
        | none =>
          let t' := { t with unlocked := joinSet l t.unlocked }
          answer (s.setTab i t') .ok (unlockFields t')
        | some pin =>
          if t.wrongTries = Config.lockoutTries then answer s .lockedOut (unlockFields t)
          else if tried = pin then
            let t' := { t with unlocked := joinSet l t.unlocked, wrongTries := 0 }
            answer (s.setTab i t') .ok (unlockFields t')
          else
            let t' := { t with wrongTries := t.wrongTries + 1 }
            if t'.wrongTries = Config.lockoutTries then answer (touch i (s.setTab i t')) .lockedOut (unlockFields t')
            else answer (s.setTab i t') .wrongPin (unlockFields t')

def execUnlock (p : Port) (tag : Nat) (body : Body TabPinFields) (s : State) : Host.Outcome State Fault Refusal :=
  serveLane .unlock tabPinCodec p tag body unlock s

/-- LOCK (R56). -/
def lock (l : Lane) (n : Nat) (s : State) : Answer :=
  withTab (.lane l) n s fun i s =>
    let t := s.tab i
    if t.state = .settling ∧ t.owner = some l then answer s .wrongState
    else answer (s.setTab i { t with unlocked := t.unlocked.filter fun x => x ≠ l }) .ok

def execLock (p : Port) (tag : Nat) (body : Body Nat) (s : State) : Host.Outcome State Fault Refusal :=
  serveLane .lock halfCodec p tag body lock s

/-- SET_PIN (R57). -/
def setPin (l : Lane) (f : TabPinFields) (s : State) : Answer :=
  withTab (.lane l) f.tab s fun i s =>
    let t := s.tab i
    if !unlockedTill l t s then answer s .locked
    else if t.state ≠ .opened then answer s (notOpen t.state)
    else if t.wrongTries = Config.lockoutTries then answer s .lockedOut
    else if !pinOk f.pin then answer s .badField
    else answer (touch i (s.setTab i { t with pin := f.pin, unlocked := [l], wrongTries := 0 })) .ok

def execSetPin (p : Port) (tag : Nat) (body : Body TabPinFields) (s : State) : Host.Outcome State Fault Refusal :=
  serveLane .setPin tabPinCodec p tag body setPin s

/-- Whether an approval asks for a lockout to be lifted. -/
def asksPinClear : Ask → Bool
  | .pinClear => true
  | .voidFired _ | .comp _ | .price _ _ | .undoTender _ => false

/-- CLEAR_LOCKOUT (R54, R55). -/
def clearLockout (l : Lane) (f : ClearLockoutFields) (s : State) : Answer :=
  withTab (.lane l) f.tab s fun i s =>
    let t := s.tab i
    if Config.maxReason < f.reason then answer s .badField
    else if t.wrongTries ≠ Config.lockoutTries then answer s .wrongState
    else if s.approvals.any (fun e => e.tab = t.number && asksPinClear e.ask) then answer s .alreadyPending
    else
      supervise l i .pinClear f.reason s (answer (applyPinClear i s) .ok) (answer s .approvalsFull)
        (fun n => [Field.small n])

def execClearLockout (p : Port) (tag : Nat) (body : Body ClearLockoutFields) (s : State) :
    Host.Outcome State Fault Refusal :=
  serveLane .clearLockout clearLockoutCodec p tag body clearLockout s

end Sys2Proof.Machine
end

