-- ==== Sys2Proof/Machine/SplitMath.lean ====
section
/-! DEFINITION. The arithmetic of the split engine, from a tab's lines to the dues of its shares (R132 to R146), exact at every
stage (R143). -/

namespace Sys2Proof.Machine

/-! ### Share definitions (R134, R135) -/

/-- Whether a number is a seat a guest sits at. -/
def seatOk (n : Nat) : Bool := 1 ≤ n && n ≤ 24

/-- The checks of a seat map (R135); a pair is (joining seat, lead seat). -/
def mapOk (m : List (Nat × Nat)) : Bool :=
  m.length ≤ 24
    && m.all (fun p => seatOk p.1 && seatOk p.2 && p.1 ≠ p.2)
    && (m.map Prod.fst).Nodup
    && m.all (fun p => !(m.map Prod.fst).contains p.2)

/-- A share definition read and checked; none where R134 refuses it with BAD_FIELD. -/
def shareDef? (mode : Nat) (count : Option Nat) (map : Option (List (Nat × Nat))) : Option ShareDef :=
  match splitModeOfCode mode, count with
  | some .even, some n => if 1 ≤ n ∧ n ≤ Config.maxShares ∧ map.getD [] = [] then some (.even n) else none
  | some .even, none => none
  | some .bySeat, none => if mapOk (map.getD []) then some (.bySeat (map.getD [])) else none
  | some .bySeat, some _ => none
  | none, _ => none

/-! ### Inputs (R133) -/

/-- What the engine reads of a tab's lines: those not VOIDED. -/
def lineInputs (t : Tab) : List LineInput :=
  (t.lines.filter fun l => l.state ≠ .voided).map fun l =>
    { amount := l.amount, taxClass := l.taxClass, seat := l.seat }

/-! ### Forming the shares (R136, R137) -/

/-- A share before its figures: its lead seat and member seats. -/
structure ShareShape where
  lead : Nat
  members : List Nat
deriving DecidableEq, Repr

/-- The seats 1–24. -/
def allSeats : List Nat := List.range' 1 24

/-- The lead of a seat under a seat map (R136). -/
def leadOf (map : List (Nat × Nat)) (seat : Nat) : Nat :=
  match map.find? (fun p => p.1 = seat) with
  | some p => p.2
  | none => seat

/-- The seats that appear on at least one line read (R136). -/
def seatedSeats (lines : List LineInput) : List Nat := allSeats.filter fun s => lines.any fun l => l.seat = s

/-- The distinct leads of the seated seats, ascending (R136). -/
def shareLeads (map : List (Nat × Nat)) (lines : List LineInput) : List Nat :=
  allSeats.filter fun t => (seatedSeats lines).any fun s => leadOf map s = t

/-- The shares of a definition in share-index order (R136, R137). -/
def shareShapes (d : ShareDef) (lines : List LineInput) : List ShareShape :=
  match d with
  | .even n => List.replicate n { lead := 0, members := [] }
  | .bySeat map =>
    match shareLeads map lines with
    | [] => [{ lead := 0, members := [] }]
    | leads => leads.map fun t => { lead := t, members := (seatedSeats lines).filter fun s => leadOf map s = t }

/-- The share count of a definition (R134, R136). -/
def shareCount (d : ShareDef) (lines : List LineInput) : Nat := (shareShapes d lines).length

/-! ### Stage 1: tab totals (R138) -/

/-- A share of an amount in basis points, rounded to the nearest cent, a half cent up. -/
def applyRate (amount rate : Nat) : Nat := (amount * rate + 5000) / 10000

/-- The sum of the amounts of the lines that satisfy a test. -/
def sumAmounts (which : LineInput → Bool) (lines : List LineInput) : Nat :=
  ((lines.filter which).map LineInput.amount).sum

def classBase (lines : List LineInput) (c : TaxClass) : Nat := sumAmounts (fun l => l.taxClass = c) lines

def classTax (inp : SplitInputs) (c : TaxClass) : Nat := applyRate (classBase inp.lines c) (inp.rates.get c)

/-- The sum of a figure over the four tax classes. -/
def sumClasses (f : TaxClass → Nat) : Nat := f 0 + f 1 + f 2 + f 3

def tabBase (lines : List LineInput) : Nat := sumClasses (classBase lines)

def serviceCharge (inp : SplitInputs) : Nat := applyRate (tabBase inp.lines) inp.service

def tabTotal (inp : SplitInputs) : Nat := tabBase inp.lines + sumClasses (classTax inp) + serviceCharge inp

def tabTotals (inp : SplitInputs) : Totals :=
  { bases := tableOf (classBase inp.lines), taxes := tableOf (classTax inp), service := serviceCharge inp
    total := tabTotal inp }

/-! ### Stage 2: bases per share (R139) -/

/-- Whether a line is paid directly by the share of a lead seat (R136, R137). -/
def paidBy (d : ShareDef) (lead : Nat) (l : LineInput) : Bool :=
  match d with
  | .even _ => false
  | .bySeat map => seatOk l.seat && leadOf map l.seat = lead

/-- Whether a line is shared by all shares: every line under EVEN, the lines of no seat under BY_SEAT. -/
def sharedLine (d : ShareDef) (l : LineInput) : Bool :=
  match d with
  | .even _ => true
  | .bySeat _ => !seatOk l.seat

/-- The equal part of the share at a position (from 0) of an amount divided among n: the lowest positions take the surplus. -/
def equalPart (amount n pos : Nat) : Nat := amount / n + if pos < amount % n then 1 else 0

/-- The share class bases of one class, in share-index order. -/
def shareClassBases (d : ShareDef) (lines : List LineInput) (c : TaxClass) : List Nat :=
  let shapes := shareShapes d lines
  let shared := sumAmounts (fun l => l.taxClass = c && sharedLine d l) lines
  shapes.zipIdx.map fun p =>
    sumAmounts (fun l => l.taxClass = c && paidBy d p.1.lead l) lines + equalPart shared shapes.length p.2

/-! ### Stage 3: the largest-remainder division (R140, R141) -/

/-- The remainder of a share in the division of an amount by its weights. -/
def remainderOf (amount total weight : Nat) : Nat := amount * weight % total

/-- How many shares rank before the one at a position: a greater remainder, or an equal one at a lower position (R140). -/
def rankOf (rems : List Nat) (pos : Nat) : Nat :=
  (rems.zipIdx.filter fun q => rems.getD pos 0 < q.1 || (rems.getD pos 0 = q.1 && q.2 < pos)).length

/-- An amount divided among shares in proportion to their weights (R140). -/
def allocate (amount : Nat) (weights : List Nat) : List Nat :=
  let total := weights.sum
  if total = 0 then weights.map fun _ => 0
  else
    let wholes := weights.map fun w => amount * w / total
    let rems := weights.map fun w => remainderOf amount total w
    let leftover := amount - wholes.sum
    wholes.zipIdx.map fun p => p.1 + if rankOf rems p.2 < leftover then 1 else 0

/-- The share class taxes of one class. -/
def shareClassTaxes (d : ShareDef) (inp : SplitInputs) (c : TaxClass) : List Nat :=
  allocate (classTax inp c) (shareClassBases d inp.lines c)

/-- The share bases: the sum of the four share class bases (R139). -/
def shareBases (d : ShareDef) (lines : List LineInput) : List Nat :=
  (List.range (shareShapes d lines).length).map fun k => sumClasses fun c => (shareClassBases d lines c).getD k 0

/-- The service parts. -/
def serviceParts (d : ShareDef) (inp : SplitInputs) : List Nat := allocate (serviceCharge inp) (shareBases d inp.lines)

/-! ### Stage 4: dues (R142) -/

/-- The figures of every share, in share-index order (R145). -/
def splitFigures (d : ShareDef) (inp : SplitInputs) : List ShareFigures :=
  let bases : Vector (List Nat) 4 := tableOf (shareClassBases d inp.lines)
  let taxes : Vector (List Nat) 4 := tableOf (shareClassTaxes d inp)
  let services := serviceParts d inp
  (shareShapes d inp.lines).zipIdx.map fun p =>
    let b : TaxClass → Nat := fun c => (bases.get c).getD p.2 0
    let x : TaxClass → Nat := fun c => (taxes.get c).getD p.2 0
    let v := services.getD p.2 0
    { lead := p.1.lead, members := p.1.members, bases := tableOf b, taxes := tableOf x, service := v
      due := sumClasses b + sumClasses x + v }

end Sys2Proof.Machine
end

