-- ==== Sys2Proof/Machine/Settlement.lean ====
section
/-! DEFINITION. The split engine's steps and the requests of settlement and close (R132 to R166). -/

namespace Sys2Proof.Machine

/-! ### Asking for a split (R147 to R149) -/

/-- The lowest-indexed free share records. DESIGN CHOICE (entry 9), safe: which records a split reserves is not seen. -/
def State.pickShares (s : State) (n : Nat) : List ShareNo :=
  ((List.finRange 384).filter fun j => s.shares.get j = .free).take n

/-- Records reserved for a tab: they hold its number and nothing else (R153). -/
def reserveShares (refs : List ShareNo) (tab : Nat) (s : State) : State :=
  { s with shares := tableOf fun j => if j ∈ refs then .reserved tab else s.shares.get j }

/-- The inputs a computation reads when it begins (R133). -/
def readInputs (s : State) (t : Tab) : SplitInputs :=
  { lines := lineInputs t, rates := s.rates, service := t.service }

/-- A computation begun on a job: its inputs read as they stand (R133, R149). -/
def beginJob (job : SplitJob) (s : State) : State :=
  let t := s.tabNumbered job.tab
  { s with computing := some { job := job, refs := t.shareRefs, inputs := readInputs s t } }

/-- The idle engine takes up the first waiting request (R149). -/
def takeUp (s : State) : State :=
  match s.computing, s.waiting with
  | none, job :: rest => beginJob job { s with waiting := rest }
  | _, _ => s

/-- An accepted request handed to the engine: begun at once when the engine is idle, else at the end of the list (R149). -/
def handToEngine (job : SplitJob) (s : State) : State :=
  match s.computing with
  | none => beginJob job s
  | some _ => { s with waiting := s.waiting ++ [job] }

/-- The changes of an accepted SPLIT (R148); its reply is withheld, and it becomes the port's outstanding request. -/
def acceptSplit (l : Lane) (tag : Nat) (i : Slot) (d : ShareDef) (n : Nat) (s : State) : State :=
  let refs := s.pickShares n
  let number := (s.tab i).number
  let s := reserveShares refs number s
  let s := s.modifyTab i fun t =>
    { t with state := .settling, owner := some l, claim := none
             split := some { mode := shapeMode d, count := n, refs := refs, totals := none } }
  let s := handToEngine { tab := number, shape := d, count := n } (takeUp s)
  touch i (s.setPort l { s.port l with outstanding := some (tag, .split) })

/-- SPLIT (R147, R148). -/
def split (tag : Nat) (l : Lane) (f : SplitFields) (s : State) : Answer :=
  withTab (.lane l) f.tab s fun i s =>
    let t := s.tab i
    let held := (t.lines.filter fun x => x.state = .entered).length
    if !unlockedTill l t s then answer s .locked
    else if t.state ≠ .opened then answer s .wrongState
    else if held ≠ 0 then answer s .linesHeld [Field.number held]
    else if s.approvals.any (fun e => e.tab = t.number && changesMoney e.ask) then answer s .approvalPending
    else
      match shareDef? f.mode f.count f.map with
      | none => answer s .badField
      | some d =>
        let n := shareCount d (lineInputs t)
        if s.freeShareCount < n then answer s .sharesFull [Field.small n, Field.number s.freeShareCount]
        else if s.computing.isSome ∧ Config.engineWaiting ≤ s.waiting.length then answer s .engineBusy
        else (acceptSplit l tag i d n s, none)

def execSplit (p : Port) (tag : Nat) (body : Body SplitFields) (s : State) : Host.Outcome State Fault Refusal :=
  serveLane .split splitCodec p tag body (split tag) s

/-- SPLIT_BEGIN (R149): the engine, idle with a request waiting, takes up the first. DESIGN CHOICE (entry 27), unsafe: the
take-up is the table's own row, so other commands can come between a completion and it. -/
def execSplitBegin (s : State) : Host.Outcome State Fault Refusal := happen takeUp s

/-! ### Completion (R145, R151, R152) -/

/-- A share as it is created at completion: PAID when its due is 0, DUE otherwise (R151). -/
def createShare (tab index : Nat) (f : ShareFigures) : Share :=
  { tab := tab, index := index, figures := f, paid := 0, tenders := [], state := if f.due = 0 then .paid else .due }

/-- The computed shares with the records they are written to, in share-index order. -/
def writtenShares (c : Computation) : List (ShareNo × Share) :=
  (c.refs.zip (splitFigures c.job.shape c.inputs)).zipIdx.map fun p =>
    (p.1.1, createShare c.job.tab (p.2 + 1) p.1.2)

/-- The hand-over to the share store and the tab table (R145); the engine becomes idle. DESIGN CHOICE (entry 27), unsafe: it
stays idle until SPLIT_BEGIN is taken, though a request waits. -/
def handOver (i : Slot) (c : Computation) (s : State) : State :=
  let written := writtenShares c
  let s := { s with
    computing := none
    shares := tableOf fun j =>
      match written.lookup j with
      | some sh => .held sh
      | none => s.shares.get j }
  s.modifyTab i fun t => { t with split := t.split.map fun r => { r with totals := some (tabTotals c.inputs) } }

/-- The reply to a completed SPLIT (R151): tab number, n, T, the dues, and whether the tab closed; true figures for an unlocked
till, as the owner is throughout. -/
def splitReply (l : Lane) (t : Tab) (c : Computation) (s : State) (closed : Bool) : Reply :=
  let dues := (s.sharesOf t).map fun sh => sh.figures.due
  { status := .ok
    body := [Field.ident t.number, Field.small c.job.count, Field.amount (figure (.lane l) t s (tabTotal c.inputs))]
      ++ listField (fun d => [Field.amount (figure (.lane l) t s d)]) dues ++ [Field.flag closed] }

/-- The reply of the settle owner's outstanding SPLIT sent, which ends its outstanding request (R151, R177). -/
def answerSplit (l : Lane) (r : Reply) (s : State) : State :=
  match (s.port l).outstanding with
  | some (tag, kind) =>
    sendReply (.lane l) tag (kindCode kind) r (s.setPort l { s.port l with outstanding := none })
  | none => s

/-- The settlement work of a completion with its settle owner present (R151). -/
def settle (i : Slot) (l : Lane) (c : Computation) (s : State) : State :=
  let reply := splitReply l (s.tab i) c s
  if (s.sharesOf (s.tab i)).all (fun sh => sh.figures.due = 0) then answerSplit l (reply true) (closeTab i s)
  else
    let s := touch i (s.modifyTab i fun t => { t with claim := some Config.claimSeconds })
    answerSplit l (reply false) s

/-- A completion (R145, R151): handed over, then settled with its owner, or released when the owner's port has been reset
(R152). -/
def complete (s : State) : State :=
  match s.computing with
  | none => s
  | some c =>
    match s.findTab c.job.tab with
    | none => { s with computing := none }
    | some i =>
      let s := handOver i c s
      match (s.tab i).owner with
      | some l => settle i l c s
      | none => releaseSplit i s

/-- SPLIT_COMPLETION (R151): nothing unless the engine is computing (entry 4). -/
def execSplitCompletion (s : State) : Host.Outcome State Fault Refusal := happen complete s

/-! ### SHARE_VIEW (R154) -/

/-- A tender as SHARE_VIEW shows it (R153, R59). -/
def tenderFields (fig : Nat → Nat) (t : Tender) : List Field :=
  [Field.code (tenderKindCode t.kind), Field.amount (fig t.applied), Field.amount (fig t.tendered), Field.amount (fig t.tip)]

/-- The four figures of a table, class 0 first. -/
def classFields (fig : Nat → Nat) (v : Vector Nat 4) : List Field :=
  [Field.amount (fig (v.get 0)), Field.amount (fig (v.get 1)), Field.amount (fig (v.get 2)), Field.amount (fig (v.get 3))]

/-- A share record as SHARE_VIEW shows it: every field of R153. -/
def shareFields (fig : Nat → Nat) (sh : Share) : List Field :=
  [Field.ident sh.tab, Field.small sh.index, Field.small sh.figures.lead]
    ++ listField (fun n => [Field.small n]) sh.figures.members
    ++ classFields fig sh.figures.bases ++ classFields fig sh.figures.taxes
    ++ [Field.amount (fig sh.figures.service), Field.amount (fig sh.figures.due), Field.amount (fig sh.paid)]
    ++ listField (tenderFields fig) sh.tenders
    ++ [Field.code (shareStateCode sh.state)]

/-- The totals a complete split's header carries: class bases and taxes, the service, T (R154). -/
def totalsFields (fig : Nat → Nat) (x : Totals) : List Field :=
  classFields fig x.bases ++ classFields fig x.taxes ++ [Field.amount (fig x.service), Field.amount (fig x.total)]

/-- The split header (R154). -/
def splitHeader (fig : Nat → Nat) (t : Tab) (r : SplitRef) : List Field :=
  [Field.code (tabStateCode t.state), Field.code (splitModeCode r.mode), Field.small r.count, Field.flag r.totals.isSome]
    ++ optField (fun l : Lane => Field.small l.val :: optField (fun n => [Field.seconds n]) t.claim) t.owner
    ++ optField (totalsFields fig) r.totals

/-- SHARE_VIEW (R154). -/
def shareView (p : Port) (f : TabPageFields) (s : State) : Answer :=
  withTab p f.tab s fun i s =>
    let t := s.tab i
    match t.split with
    | none => answer s .wrongState
    | some r =>
      if f.first < 1 ∨ Config.maxShares < f.first then answer s .badField
      else
        let fig := figure p t s
        let share := if r.totals.isSome then (s.shareAt t f.first).map Prod.snd else none
        let next := if r.totals.isSome ∧ f.first < r.count then some (f.first + 1) else none
        answer s .ok
          (splitHeader fig t r ++ optField (shareFields fig) share ++ optField (fun n => [Field.small n]) next)

def execShareView (p : Port) (tag : Nat) (body : Body TabPageFields) (s : State) : Host.Outcome State Fault Refusal :=
  serve .shareView tabPageCodec p tag body (shareView p) s

/-! ### Tenders (R155 to R157) -/

/-- The kind and tip of a TENDER, when they are in range (R155, step 5). -/
def tenderOperands (f : TenderFields) : Option (TenderKind × Nat) :=
  match tenderKindOfCode f.kind with
  | none => none
  | some k =>
    let tip := f.tip.getD 0
    if Config.maxTip < tip ∨ (k ≠ .card ∧ 0 < tip) then none else some (k, tip)

/-- The applied amount of a tender (R156). -/
def appliedAmount (k : TenderKind) (amount remaining : Nat) : Nat :=
  match k with
  | .card => amount
  | .cash | .voucher => min amount remaining

/-- A share with a tender appended: PAID when its paid equals its due (R156). -/
def Share.addTender (t : Tender) (sh : Share) : Share :=
  let paid := sh.paid + t.applied
  { sh with tenders := sh.tenders ++ [t], paid := paid, state := if paid = sh.figures.due then .paid else sh.state }

/-- Whether every share of a tab is PAID. -/
def State.allPaid (s : State) (t : Tab) : Bool := (s.sharesOf t).all fun sh => sh.state = .paid

/-- What a tender reports over what it applied: cash change or voucher forfeit, 0 for a card (R156). -/
def overage (t : Tender) : Nat := t.tendered - t.applied

/-- The reply to a TENDER (R156). -/
def tenderReply (index : Nat) (t : Tender) (sh : Share) (closed : Bool) : List Field :=
  [Field.small index, Field.amount t.applied, Field.amount (overage t), Field.amount t.tip, Field.amount sh.paid,
    Field.amount sh.remaining, Field.code (shareStateCode sh.state), Field.flag closed]

/-- A TENDER that passes its checks: the tender appended, and the tab closed when its last share is PAID (R156, R158). -/
def takeTender (i : Slot) (j : ShareNo) (index : Nat) (sh : Share) (t : Tender) (s : State) : Answer :=
  let sh' := sh.addTender t
  let s' := touch i (s.setShare j (.held sh'))
  let closes := sh'.state = .paid && s'.allPaid (s'.tab i)
  answer (if closes then closeTab i s' else s') .ok (tenderReply index t sh' closes)

/-- What an amount above the share's remaining is refused with (R155, step 9). -/
def overTendered (k : TenderKind) (amount remaining : Nat) : Option Status :=
  match k with
  | .card => if remaining < amount then some .overDue else none
  | .cash | .voucher => if remaining + Config.maxOver < amount then some .badField else none

/-- The checks of a request that acts on a complete split as its settle owner (R155, R157, R160, steps 2 to 4). -/
def withOwnSplit (l : Lane) (i : Slot) (s : State) (k : SplitRef → Answer) : Answer :=
  let t := s.tab i
  if !unlockedTill l t s then answer s .locked
  else
    match t.split with
    | none => answer s .wrongState
    | some r =>
      if t.state ≠ .settling ∨ r.totals = none then answer s .wrongState
      else if t.owner ≠ some l then answer s .notOwner
      else k r

/-- TENDER (R155, R156). -/
def tender (l : Lane) (f : TenderFields) (s : State) : Answer :=
  withTab (.lane l) f.tab s fun i s =>
    withOwnSplit l i s fun _ =>
      match s.shareAt (s.tab i) f.share, tenderOperands f with
      | some (j, sh), some (k, tip) =>
        if sh.state = .paid then answer s .wrongState
        else if Config.maxTenders ≤ sh.tenders.length then answer s .tenderLimit
        else
          let amount := f.amount.getD 0
          if amount = 0 then answer s .badField
          else
            match overTendered k amount sh.remaining with
            | some .overDue => answer s .overDue [Field.amount sh.remaining]
            | some st => answer s st
            | none =>
              takeTender i j f.share sh
                { kind := k, applied := appliedAmount k amount sh.remaining, tendered := amount, tip := tip } s
      | _, _ => answer s .badField

def execTender (p : Port) (tag : Nat) (body : Body TenderFields) (s : State) : Host.Outcome State Fault Refusal :=
  serveLane .tender tenderCodec p tag body tender s

/-- Whether an approval asks to undo a tender of a share. -/
def asksUndoOf (index : Nat) (a : Ask) : Bool := a = .undoTender index

/-- UNDO_TENDER (R157). -/
def undoTender (l : Lane) (f : UndoTenderFields) (s : State) : Answer :=
  withTab (.lane l) f.tab s fun i s =>
    withOwnSplit l i s fun _ =>
      match s.shareAt (s.tab i) f.share with
      | none => answer s .badField
      | some (_, sh) =>
        if Config.maxReason < f.reason then answer s .badField
        else if sh.tenders = [] then answer s .wrongState
        else if s.approvals.any (fun e => e.tab = (s.tab i).number && asksUndoOf f.share e.ask) then
          answer s .alreadyPending
        else
          supervise l i (.undoTender f.share) f.reason s (answer (applyUndo i f.share s) .ok) (answer s .approvalsFull)
            (fun n => [Field.small n])

def execUndoTender (p : Port) (tag : Nat) (body : Body UndoTenderFields) (s : State) : Host.Outcome State Fault Refusal :=
  serveLane .undoTender undoTenderCodec p tag body undoTender s

/-! ### DROP_SPLIT, claim lapse, ADOPT (R160 to R164) -/

/-- DROP_SPLIT (R160). -/
def dropSplit (l : Lane) (n : Nat) (s : State) : Answer :=
  withTab (.lane l) n s fun i s =>
    withOwnSplit l i s fun _ =>
      if s.anyTender (s.tab i) then answer s .wrongState else answer (releaseSplit i s) .ok

def execDropSplit (p : Port) (tag : Nat) (body : Body Nat) (s : State) : Host.Outcome State Fault Refusal :=
  serveLane .dropSplit halfCodec p tag body dropSplit s

/-- CLAIM_LAPSE of a tab (R162): nothing unless its claim countdown has reached 0 (entry 4). -/
def lapseClaim (n : Nat) (s : State) : State :=
  match s.findTab n with
  | none => s
  | some i =>
    if (s.tab i).claim = some 0 ∧ (s.tab i).state = .settling then
      loseOwner i (raiseOptional .claimLapsed (s.tab i).owner s)
    else s

def execClaimLapse (tab : Nat) (s : State) : Host.Outcome State Fault Refusal := happen (lapseClaim tab) s

/-- What the reply to ADOPT carries: n, T and the remaining of each share (R164). -/
def adoptFields (l : Lane) (t : Tab) (r : SplitRef) (s : State) : List Field :=
  let fig := figure (.lane l) t s
  [Field.small r.count, Field.amount (fig (t.total?.getD 0))]
    ++ listField (fun sh : Share => [Field.amount (fig sh.remaining)]) (s.sharesOf t)

/-- ADOPT (R164). DEDUCED (entry 18): the figures are carried too when the requester is the owner already. -/
def adopt (l : Lane) (n : Nat) (s : State) : Answer :=
  withTab (.lane l) n s fun i s =>
    let t := s.tab i
    if !unlockedTill l t s then answer s .locked
    else
      match t.split with
      | none => answer s .wrongState
      | some r =>
        if t.state ≠ .settling ∨ r.totals = none then answer s .wrongState
        else
          match t.owner with
          | some o => if o = l then answer s .ok (adoptFields l t r s) else answer s .notOwner
          | none =>
            answer (touch i (s.setTab i { t with owner := some l, claim := some Config.claimSeconds })) .ok
              (adoptFields l t r s)

def execAdopt (p : Port) (tag : Nat) (body : Body Nat) (s : State) : Host.Outcome State Fault Refusal :=
  serveLane .adopt halfCodec p tag body adopt s

/-! ### The close queue (R165, R166) -/

/-- The sum of a figure over the tenders of a tab's shares that satisfy a test. -/
def sumTenders (which : Tender → Bool) (fig : Tender → Nat) (shares : List Share) : Nat :=
  (((shares.flatMap Share.tenders).filter which).map fig).sum

/-- The close summary of a tab (R165). -/
def closeSummary (t : Tab) (r : SplitRef) (x : Totals) (shares : List Share) : List Field :=
  [Field.ident t.number, Field.stamp t.openedAt, Field.stamp (t.closedAt.getD 0), Field.amount x.total]
    ++ classFields id x.bases ++ classFields id x.taxes
    ++ [Field.amount x.service,
      Field.amount (sumTenders (fun _ => true) Tender.tip shares),
      Field.amount (sumTenders (fun d => d.kind = .card) Tender.applied shares),
      Field.amount (sumTenders (fun d => d.kind = .cash) Tender.applied shares),
      Field.amount (sumTenders (fun d => d.kind = .voucher) Tender.applied shares),
      Field.amount (sumTenders (fun d => d.kind = .cash) overage shares),
      Field.amount (sumTenders (fun d => d.kind = .voucher) overage shares),
      Field.number (t.lines.filter fun l => l.state ≠ .voided).length,
      Field.number (t.lines.filter fun l => l.state = .voided).length,
      Field.number (t.lines.filter fun l => l.comped && l.state ≠ .voided).length,
      Field.small r.count]

/-- The summary of a tab as it stands; empty for a tab that holds no complete split, which no CLOSED tab is. -/
def summaryOf (t : Tab) (s : State) : List Field :=
  match t.split with
  | none => []
  | some r =>
    match r.totals with
    | none => []
    | some x => closeSummary t r x (s.sharesOf t)

/-- A CLOSED tab whose summary has been taken: its records free, and EXPORTED or FREE (R166). -/
def exportTab (i : Slot) (s : State) : State :=
  let s := (freeShares (s.tab i).shareRefs s).modifyTab i fun t => { t with split := none }
  if (s.tab i).live = 0 then freeTab i s else touch i (s.modifyTab i fun t => { t with state := .exported })

/-- TAKE_CLOSED (R166). -/
def takeClosed (_ : Unit) (s : State) : Answer :=
  match s.closeQueue with
  | [] => answer s .nothing
  | n :: rest =>
    let s := { s with closeQueue := rest }
    match s.findTab n with
    | none => answer s .ok
    | some i => answer (exportTab i s) .ok (summaryOf (s.tab i) s)

def execTakeClosed (p : Port) (tag : Nat) (body : Body Unit) (s : State) : Host.Outcome State Fault Refusal :=
  serve .takeClosed unitCodec p tag body takeClosed s

end Sys2Proof.Machine
end

