-- ==== Sys2Proof/Machine/Stations.lean ====
section
/-! DEFINITION. The requests of the kitchen stations, their configuration and the late expiry (R93 to R107). -/

namespace Sys2Proof.Machine

/-! ### RAIL (R93) -/

/-- The content of one place of the rail, or an absent marker. -/
def railPlace (s : State) (t : Option Ticket) : List Field := optField (ticketContent s .queued) t

/-- RAIL (R93). -/
def rail (st : StationNo) (_ : Unit) (s : State) : Answer :=
  answer s .ok
    ([Field.code (stationStateCode (s.station st).state), Field.code (holdLowCode (s.station st).holdLow)]
      ++ railPlace s (s.dispatch st)[0]? ++ railPlace s (s.dispatch st)[1]?)

def execRail (p : Port) (tag : Nat) (body : Body Unit) (s : State) : Host.Outcome State Fault Refusal :=
  serveStation .rail unitCodec p tag body rail s

/-! ### TAKE, BUMP, RESUME, RECALL (R94 to R100) -/

/-- Whether taking another ticket into work would push a third ticket onto the stack (R94, R100). -/
def stackFull (st : Station) : Bool := st.inWork.isSome && Config.stackSize ≤ st.stack.length

/-- The station with a ticket in work, the one it had before pushed onto the stack (R95, R96, R100). -/
def Station.putInWork (t : Ticket) (st : Station) : Station :=
  { st with inWork := some t, stack := st.inWork.toList ++ st.stack }

/-- The number of the ticket pushed onto the stack, when there was one (R95, R100). -/
def pushedField (st : Station) : List Field := optField (fun t : Ticket => [Field.ident t.number]) st.inWork

/-- The station with a ticket taken out of its queue into work (R95). -/
def Station.takeTicket (t : Ticket) (st : Station) : Station :=
  { st with queue := st.queue.filter fun x => x.number ≠ t.number }.putInWork t

/-- TAKE (R94, R95). -/
def take (st : StationNo) (_ : Unit) (s : State) : Answer :=
  match s.dispatch st with
  | [] => answer s .nothing
  | t :: _ =>
    if stackFull (s.station st) then answer s .stackFull
    else
      let s' := recomputeRail st (s.modifyStation st (Station.takeTicket t))
      answer s' .ok (ticketContent s' .inWork t ++ pushedField (s.station st))

def execTake (p : Port) (tag : Nat) (body : Body Unit) (s : State) : Host.Outcome State Fault Refusal :=
  serveStation .take unitCodec p tag body take s

/-- A FIRED line served (R29, R97). -/
def serveLine (l : Line) : Line := if l.state = .fired then { l with state := .served } else l

/-- A SERVED line fired again (R29, R100). -/
def unserveLine (l : Line) : Line := if l.state = .served then { l with state := .fired } else l

/-- The station after a BUMP of its in-work ticket: the ticket DONE at the front of the recall list of at most 8 (R97, R98). -/
def Station.bumpTicket (t : Ticket) (st : Station) : Station :=
  { st with inWork := none, recalls := ({ t with late := none } :: st.recalls).take Config.recallSize }

/-- The tab's side of a BUMP (R97): lines SERVED, one live ticket less, and FREE when it is EXPORTED with none left (R48). -/
def serveTab (i : Slot) (t : Ticket) (s : State) : State :=
  let s := touch i (s.modifyTab i fun tab => (tab.changeLines t.lines serveLine).oneTicketLess)
  if (s.tab i).state = .exported ∧ (s.tab i).live = 0 then freeTab i s else s

/-- BUMP (R97). -/
def bump (st : StationNo) (_ : Unit) (s : State) : Answer :=
  match (s.station st).inWork with
  | none => answer s .wrongState
  | some t =>
    let s' := s.modifyStation st (Station.bumpTicket t)
    let s' :=
      match s'.findTab t.tab with
      | some i => serveTab i t s'
      | none => s'
    answer s' .ok [Field.ident t.number]

def execBump (p : Port) (tag : Nat) (body : Body Unit) (s : State) : Host.Outcome State Fault Refusal :=
  serveStation .bump unitCodec p tag body bump s

/-- RESUME (R99). -/
def resume (st : StationNo) (_ : Unit) (s : State) : Answer :=
  match (s.station st).inWork, (s.station st).stack with
  | none, t :: rest =>
    let s' := s.modifyStation st fun x => { x with inWork := some t, stack := rest }
    answer s' .ok (ticketContent s' .inWork t)
  | _, _ => answer s .wrongState

def execResume (p : Port) (tag : Nat) (body : Body Unit) (s : State) : Host.Outcome State Fault Refusal :=
  serveStation .resume unitCodec p tag body resume s

/-- The station with a DONE ticket taken out of its recall list into work (R100). -/
def Station.recallTicket (t : Ticket) (st : Station) : Station :=
  { st with recalls := st.recalls.filter fun x => x.number ≠ t.number }.putInWork t

/-- The tab's side of a RECALL (R100): lines FIRED again and one live ticket more. -/
def unserveTab (i : Slot) (t : Ticket) (s : State) : State :=
  touch i (s.modifyTab i fun tab => { tab.changeLines t.lines unserveLine with live := tab.live + 1 })

/-- RECALL (R100). -/
def recallTicket (st : StationNo) (n : Nat) (s : State) : Answer :=
  if (s.station st).state = .closed then answer s .wrongState
  else
    match (s.station st).recalls.find? (fun t => t.number = n) with
    | none => answer s .noTicket
    | some t =>
      if s.poolFree = 0 then answer s .ticketsFull
      else if stackFull (s.station st) then answer s .stackFull
      else
        let s' := s.modifyStation st (Station.recallTicket t)
        let s' :=
          match s'.findTab t.tab with
          | some i => unserveTab i t s'
          | none => s'
        answer s' .ok (ticketContent s' .inWork t ++ pushedField (s.station st))

def execRecall (p : Port) (tag : Nat) (body : Body Nat) (s : State) : Host.Outcome State Fault Refusal :=
  serveStation .recallTicket halfCodec p tag body recallTicket s

/-! ### HOLD_LOW, PAUSE, OPEN (R101, R102) -/

/-- HOLD_LOW (R101). -/
def holdLow (st : StationNo) (code : Nat) (s : State) : Answer :=
  match holdLowOfCode code with
  | none => answer s .badField
  | some b => answer (recomputeRail st (s.modifyStation st fun x => { x with holdLow := b })) .ok

def execHoldLow (p : Port) (tag : Nat) (body : Body Nat) (s : State) : Host.Outcome State Fault Refusal :=
  serveStation .holdLow byteCodec p tag body holdLow s

/-- PAUSE and OPEN at a station: to the state asked, with the rail recomputed; refused at a CLOSED station (R102). -/
def setWorking (asked : StationState) (st : StationNo) (s : State) : Answer :=
  if (s.station st).state = .closed then answer s .wrongState
  else if (s.station st).state = asked then answer s .ok [Field.code (stationStateCode asked)]
  else
    answer (recomputeRail st (s.modifyStation st fun x => { x with state := asked })) .ok
      [Field.code (stationStateCode asked)]

/-- The body of PAUSE and OPEN read for its port: no field from a lane port, a station number from the office (R102); any
other body is not the fields of its kind (R176). -/
def workingBody (p : Port) (body : Body (Option Nat)) : Body (Option Nat) :=
  match p, body with
  | .lane _, .fields (some _) => .unread []
  | .office, .fields none => .unread []
  | _, body => body

/-- PAUSE and OPEN from the office, which names the station, or from a station's bound port (R102). -/
def pauseOrOpen (asked : StationState) (p : Port) (f : Option Nat) (s : State) : Answer :=
  match p with
  | .office =>
    match f.bind (fin? 8) with
    | some st => setWorking asked st s
    | none => answer s .badField
  | .lane l =>
    match (s.port l).bound with
    | some st => setWorking asked st s
    | none => answer s .unsupported

def execPause (p : Port) (tag : Nat) (body : Body (Option Nat)) (s : State) : Host.Outcome State Fault Refusal :=
  serve .pause (workingCodec p) p tag (workingBody p body) (pauseOrOpen .paused p) s

def execOpen (p : Port) (tag : Nat) (body : Body (Option Nat)) (s : State) : Host.Outcome State Fault Refusal :=
  serve .openStation (workingCodec p) p tag (workingBody p body) (pauseOrOpen .opened p) s

/-! ### STATION_VIEW (R103) -/

/-- The tickets of a station in the order of their positions, each with its part (R103): eligible, not eligible, in work,
stack, recall list. -/
def stationPositions (s : State) (st : StationNo) : List (Nat × TicketState × Ticket) :=
  let x := s.station st
  (s.dispatch st).map (fun t => (0, .queued, t))
    ++ (bySequence (x.queue.filter fun t => !s.eligible st t)).map (fun t => (1, .queued, t))
    ++ x.inWork.toList.map (fun t => (2, .inWork, t))
    ++ x.stack.map (fun t => (3, .setAside, t))
    ++ x.recalls.map (fun t => (4, .done, t))

/-- The header of a STATION_VIEW reply (R103). -/
def stationHeader (s : State) (st : StationNo) : List Field :=
  let x := s.station st
  [Field.code (stationStateCode x.state)]
    ++ optField (fun a : StationNo => [Field.small a.val]) x.alternate
    ++ [Field.code (holdLowCode x.holdLow), Field.seconds x.threshold,
      Field.number (s.dispatch st).length, Field.number (x.queue.filter fun t => !s.eligible st t).length,
      Field.number x.inWork.toList.length, Field.number x.stack.length, Field.number x.recalls.length]

/-- STATION_VIEW (R103): the header, at most 2 tickets from the start position, each with the marker of its part after its
content, and the next position. -/
def stationView (st : StationNo) (start : Nat) (s : State) : Answer :=
  if Config.maxStationPosition < start then answer s .badField
  else
    let rest := (stationPositions s st).drop start
    answer s .ok
      (stationHeader s st
        ++ listField (fun q : Nat × TicketState × Ticket => ticketContent s q.2.1 q.2.2 ++ [Field.code q.1])
            (rest.take Config.stationPage)
        ++ optField (fun _ => [Field.small (start + Config.stationPage)]) rest[Config.stationPage]?)

def execStationView (p : Port) (tag : Nat) (body : Body Nat) (s : State) : Host.Outcome State Fault Refusal :=
  serveStation .stationView byteCodec p tag body stationView s

/-! ### SET_STATION (R104, R105) -/

/-- A late threshold brought into range: 0 or 60–3,600 (R104). -/
def clampThreshold (n : Nat) : Nat := if n = 0 then 0 else max Config.minLate (min n Config.maxLate)

/-- An alternate read: none when it is out of range or the station itself (R104). -/
def readAlternate (st : StationNo) (a : Option Nat) : Option (Option StationNo) :=
  match a with
  | none => some none
  | some n => (fin? 8 n).bind fun x => if x = st then none else some (some x)

/-- A ticket moved to an alternate: rerouted, unless the alternate is its home station (R105). -/
def Ticket.movedTo (a : StationNo) (t : Ticket) : Ticket := { t with rerouted := t.home ≠ a }

/-- The queue of a closing station moved to its alternate (R105). -/
def moveQueue (st a : StationNo) (s : State) : State :=
  let moved := (s.station st).queue.map (Ticket.movedTo a)
  (s.modifyStation st fun x => { x with queue := [] }).modifyStation a fun x => { x with queue := x.queue ++ moved }

/-- What a SET_STATION reply carries: state, alternate, threshold, and the number of tickets moved (R104). -/
def stationFigures (x : Station) (moved : Nat) : List Field :=
  [Field.code (stationStateCode x.state)]
    ++ optField (fun a : StationNo => [Field.small a.val]) x.alternate
    ++ [Field.seconds x.threshold, Field.number moved]

/-- The station's new configuration (R104). -/
def configure (st : StationNo) (state : StationState) (a : Option StationNo) (threshold : Nat) (s : State) : State :=
  s.modifyStation st fun x => { x with state := state, alternate := a, threshold := threshold }

/-- SET_STATION taken without a close: the configuration replaced and the rail recomputed (R104). -/
def reconfigure (st : StationNo) (state : StationState) (a : Option StationNo) (threshold : Nat) (status : Status)
    (s : State) : Answer :=
  let s' := recomputeRail st (configure st state a threshold s)
  answer s' status (stationFigures (s'.station st) 0)

/-- A close (R105): refused while a ticket is in hand, with a queue that has nowhere to go, or with an alternate that has no
room; otherwise the whole queue moves and both rails are recomputed. -/
def closeStation (st : StationNo) (a : Option StationNo) (threshold : Nat) (status : Status) (s : State) : Answer :=
  let x := s.station st
  if x.inWork.isSome || x.stack ≠ [] then answer s .stationBusy
  else if x.queue = [] then reconfigure st .closed a threshold status s
  else
    match a with
    | none => answer s .ticketsStranded
    | some b =>
      if (s.station b).state = .closed then answer s .ticketsStranded
      else if Config.queueSize < (s.station b).queue.length + x.queue.length then
        answer s .queueFull [Field.small b.val, Field.number (s.station b).queue.length]
      else
        let s' := recomputeRails [st, b] (moveQueue st b (configure st .closed a threshold s))
        answer s' status (stationFigures (s'.station st) x.queue.length)

/-- SET_STATION (R104, R105). -/
def setStation (f : SetStationFields) (s : State) : Answer :=
  match fin? 8 f.station, stationStateOfCode f.state with
  | some st, some state =>
    match readAlternate st f.alternate with
    | none => answer s .badField
    | some a =>
      let threshold := clampThreshold f.threshold
      let status := if threshold = f.threshold then Status.ok else .clamped
      if state = .closed ∧ (s.station st).state ≠ .closed then closeStation st a threshold status s
      else reconfigure st state a threshold status s
  | _, _ => answer s .badField

def execSetStation (p : Port) (tag : Nat) (body : Body SetStationFields) (s : State) : Host.Outcome State Fault Refusal :=
  serve .setStation setStationCodec p tag body setStation s

/-! ### Late expiry (R106, R107) -/

/-- A ticket whose late countdown has reached 0 made late (R107). -/
def Ticket.expire (n : Nat) (t : Ticket) : Ticket :=
  if t.number = n ∧ t.late = some 0 then { t with late := none, lateFlag := true } else t

/-- LATE_EXPIRY of a ticket (R107): nothing unless the ticket is live with its countdown at 0 (entry 4). -/
def expireLate (n : Nat) (s : State) : State :=
  match s.findLive n with
  | none => s
  | some (st, _, t) =>
    if t.late = some 0 then
      let s' := raiseOptional .ticketLate (s.station st).port (s.modifyStation st (Station.mapLive (Ticket.expire n)))
      raiseLanes .ticketLate (s.tabNumbered t.tab).followers s'
    else s

def execLateExpiry (ticket : Nat) (s : State) : Host.Outcome State Fault Refusal := happen (expireLate ticket) s

end Sys2Proof.Machine
end

