-- ==== Sys2Proof/Machine/Dispatch.lean ====
section
/-! DEFINITION. The meaning of every command: one arm per constructor, each a direct call. -/

namespace Sys2Proof.Machine

def exec (i : Instr) (s : State) : Host.Outcome State Fault Refusal :=
  match i with
  | .powerOn => Sys2Proof.Machine.execPowerOn s
  | .resetPin => Sys2Proof.Machine.execResetPin s
  | .reset port tag body => Sys2Proof.Machine.execReset port tag body s
  | .secondTick => Sys2Proof.Machine.execSecondTick s
  | .lateExpiry ticket => Sys2Proof.Machine.execLateExpiry ticket s
  | .claimLapse tab => Sys2Proof.Machine.execClaimLapse tab s
  | .frameTimeout l => Sys2Proof.Machine.execFrameTimeout l s
  | .lengthError port length => Sys2Proof.Machine.execLengthError port length s
  | .crcMismatch port bytes crc => Sys2Proof.Machine.execCrcMismatch port bytes crc s
  | .csDeasserted => Sys2Proof.Machine.execCsDeasserted s
  | .badTagOrKind port tag kind => Sys2Proof.Machine.execBadTagOrKind port tag kind s
  | .unknownKind port tag kind => Sys2Proof.Machine.execUnknownKind port tag kind s
  | .transmitListFull l => Sys2Proof.Machine.execTransmitListFull l s
  | .officeRequestOverrun => Sys2Proof.Machine.execOfficeRequestOverrun s
  | .frameSent l => Sys2Proof.Machine.execFrameSent l s
  | .replyClockedOut => Sys2Proof.Machine.execReplyClockedOut s
  | .openTab port tag body => Sys2Proof.Machine.execOpenTab port tag body s
  | .tabView port tag body => Sys2Proof.Machine.execTabView port tag body s
  | .addLine port tag body => Sys2Proof.Machine.execAddLine port tag body s
  | .voidLine port tag body => Sys2Proof.Machine.execVoidLine port tag body s
  | .compLine port tag body => Sys2Proof.Machine.execCompLine port tag body s
  | .overridePrice port tag body => Sys2Proof.Machine.execOverridePrice port tag body s
  | .follow port tag body => Sys2Proof.Machine.execFollow port tag body s
  | .unfollow port tag body => Sys2Proof.Machine.execUnfollow port tag body s
  | .setService port tag body => Sys2Proof.Machine.execSetService port tag body s
  | .unlock port tag body => Sys2Proof.Machine.execUnlock port tag body s
  | .lock port tag body => Sys2Proof.Machine.execLock port tag body s
  | .setPin port tag body => Sys2Proof.Machine.execSetPin port tag body s
  | .clearLockout port tag body => Sys2Proof.Machine.execClearLockout port tag body s
  | .fire port tag body => Sys2Proof.Machine.execFire port tag body s
  | .rail port tag body => Sys2Proof.Machine.execRail port tag body s
  | .take port tag body => Sys2Proof.Machine.execTake port tag body s
  | .bump port tag body => Sys2Proof.Machine.execBump port tag body s
  | .resume port tag body => Sys2Proof.Machine.execResume port tag body s
  | .recallTicket port tag body => Sys2Proof.Machine.execRecall port tag body s
  | .holdLow port tag body => Sys2Proof.Machine.execHoldLow port tag body s
  | .pause port tag body => Sys2Proof.Machine.execPause port tag body s
  | .openStation port tag body => Sys2Proof.Machine.execOpen port tag body s
  | .stationView port tag body => Sys2Proof.Machine.execStationView port tag body s
  | .setStation port tag body => Sys2Proof.Machine.execSetStation port tag body s
  | .passSupervisor port tag body => Sys2Proof.Machine.execPassSupervisor port tag body s
  | .reclaim port tag body => Sys2Proof.Machine.execReclaim port tag body s
  | .approvalList port tag body => Sys2Proof.Machine.execApprovalList port tag body s
  | .approve port tag body => Sys2Proof.Machine.execApprove port tag body s
  | .deny port tag body => Sys2Proof.Machine.execDeny port tag body s
  | .withdraw port tag body => Sys2Proof.Machine.execWithdraw port tag body s
  | .results port tag body => Sys2Proof.Machine.execResults port tag body s
  | .split port tag body => Sys2Proof.Machine.execSplit port tag body s
  | .splitBegin => Sys2Proof.Machine.execSplitBegin s
  | .splitCompletion => Sys2Proof.Machine.execSplitCompletion s
  | .shareView port tag body => Sys2Proof.Machine.execShareView port tag body s
  | .tender port tag body => Sys2Proof.Machine.execTender port tag body s
  | .undoTender port tag body => Sys2Proof.Machine.execUndoTender port tag body s
  | .dropSplit port tag body => Sys2Proof.Machine.execDropSplit port tag body s
  | .adopt port tag body => Sys2Proof.Machine.execAdopt port tag body s
  | .takeClosed port tag body => Sys2Proof.Machine.execTakeClosed port tag body s
  | .loadItem port tag body => Sys2Proof.Machine.execLoadItem port tag body s
  | .withdrawItem port tag body => Sys2Proof.Machine.execWithdrawItem port tag body s
  | .loadModifier port tag body => Sys2Proof.Machine.execLoadModifier port tag body s
  | .setTaxRate port tag body => Sys2Proof.Machine.execSetTaxRate port tag body s
  | .setGroupPriority port tag body => Sys2Proof.Machine.execSetGroupPriority port tag body s
  | .setCount port tag body => Sys2Proof.Machine.execSetCount port tag body s
  | .availability port tag body => Sys2Proof.Machine.execAvailability port tag body s
  | .setPort port tag body => Sys2Proof.Machine.execSetPort port tag body s
  | .events port tag body => Sys2Proof.Machine.execEvents port tag body s
  | .setMask port tag body => Sys2Proof.Machine.execSetMask port tag body s
  | .setClock port tag body => Sys2Proof.Machine.execSetClock port tag body s
  | .status port tag body => Sys2Proof.Machine.execStatus port tag body s
  | .startByteReceived port => Sys2Proof.Machine.execStartByteReceived port s
  | .resetPinAsserted => Sys2Proof.Machine.execResetPinAsserted s

end Sys2Proof.Machine
end

