-- ==== Sys2Proof/Safety.lean ====
section
/-! DEFINITION. The terms claims are made in: when a port's request is taken, what a step sends to the ports, and the
invariants of the part. -/

namespace Sys2Proof.Machine

/-! ### Ports whose request reaches the owning block (R167, R173, R175, R177) -/

/-- A lane whose request frame is taken and not answered BUSY: the part is not held in reset, the tag is not 0, the frame has
not met two ticks, fewer than six frames wait to be sent, and no SPLIT is outstanding. -/
def laneReady (l : Lane) (tag : Nat) (s : State) : Bool :=
  !s.resetPin && tag ≠ 0 && !overdue (.lane l) s && (s.port l).transmit.length < 6 && (s.port l).outstanding.isNone

/-- A lane ready with the role TILL. -/
def tillReady (l : Lane) (tag : Nat) (s : State) : Bool := laneReady l tag s && (s.port l).role = .till

/-- A lane ready with the role STATION and a bound station. -/
def stationReady (l : Lane) (st : StationNo) (tag : Nat) (s : State) : Bool :=
  laneReady l tag s && (s.port l).role = .station && (s.port l).bound = some st

/-- The office with its reply slot empty. -/
def officeReady (tag : Nat) (s : State) : Bool := !s.resetPin && tag ≠ 0 && s.replySlot.isNone

/-- A port ready for a request that TILL, STATION and office ports may send. -/
def anyReady (p : Port) (tag : Nat) (s : State) : Bool :=
  match p with
  | .lane l => laneReady l tag s && (s.port l).role ≠ .off
  | .office => officeReady tag s

/-- A lane ready for a request that TILL and STATION ports may send. -/
def joinReady (l : Lane) (tag : Nat) (s : State) : Bool := laneReady l tag s && (s.port l).role ≠ .off

/-- A port ready for a request that TILL ports and the office may send. -/
def deskReady (p : Port) (tag : Nat) (s : State) : Bool :=
  match p with
  | .lane l => tillReady l tag s
  | .office => officeReady tag s

/-! ### What a step sends: replies, events, notices (R167, R179, R180) -/

/-- The event kinds a step raises, port by port. -/
abbrev Raised := Port → EventSet

def nobody : Raised := fun _ => 0

def both (a b : Raised) : Raised := fun p => a p ||| b p

def toLanes (k : EventKind) (ls : List Lane) : Raised := fun p =>
  match p with
  | .lane l => if l ∈ ls then eventBit k else 0
  | .office => 0

def toPort (k : EventKind) (q : Port) : Raised := fun p => if p = q then eventBit k else 0

/-- Raised to every TILL port of a state (R17). -/
def toTills (k : EventKind) (s : State) : Raised := fun p =>
  match p with
  | .lane l => if (s.port l).role = .till then eventBit k else 0
  | .office => 0

/-- An entry that gains event kinds, is sent frames, and after them the notice of a rise of its pending set (R167, R179,
R180). -/
def PortEntry.gains (frames : List Frame) (raised : EventSet) (e : PortEntry) : PortEntry :=
  let events := e.events ||| raised
  let rises := e.notices && e.role ≠ .off && e.pendingSet = 0 && events &&& e.mask ≠ 0
  { e with events := events, transmit := e.transmit ++ frames ++ if rises then [.notice (events &&& e.mask)] else [] }

/-- The ports after a step that raised events and answered no one. -/
def State.told (r : Raised) (s : State) : State :=
  { s with
    ports := tableOf fun l => (s.port l).gains [] (r (.lane l))
    officeEvents := s.officeEvents ||| r .office }

/-- The ports after a request answered: the requester hunts again and is sent the reply, and events are raised. -/
def State.answered (p : Port) (tag code : Nat) (status : Status) (body : List Field) (r : Raised) (s : State) : State :=
  let f := Frame.reply tag (code + 0x80) status body
  { s with
    ports := tableOf fun l =>
      if p = .lane l then ({ s.port l with receiver := .hunting } : PortEntry).gains [f] (r (.lane l))
      else (s.port l).gains [] (r (.lane l))
    officeEvents := s.officeEvents ||| r .office
    replySlot := if p = .office then some f else s.replySlot
    replyPosition := if p = .office then 0 else s.replyPosition
    officeReceiver := if p = .office then .hunting else s.officeReceiver }

/-- The office after a number of byte transfers: as many bytes of a waiting reply are clocked out, and with its last byte the slot
is empty (R175). -/
def State.clockedOut (n : Nat) (s : State) : State :=
  match s.replySlot with
  | none => s
  | some f =>
    if s.replyPosition + n < (frameBytes f).length then { s with replyPosition := s.replyPosition + n }
    else { s with replySlot := none, replyPosition := 0 }

/-- The bytes of a frame at the office that are counted already: its start byte, once the office is in the frame (R173). -/
def State.startCounted (s : State) : Nat := if s.officeReceiver = .hunting then 0 else 1

/-- A state at the end of a frame of `n` bytes: at the office, with as many bytes of a waiting reply clocked out (R175). -/
def State.frameClocked (p : Port) (n : Nat) (s : State) : State :=
  if p = .office then s.clockedOut (n - s.startCounted) else s

/-- A frame dropped with FRAME_ERROR (R173). -/
def State.dropped (p : Port) (s : State) : State := (huntAgain p s).told (toPort .frameError p)

/-! ### Parts of a step's effect that several rules share -/

/-- A tab after a request that names it: the settle claim of its owner restarted (R161). -/
def Tab.named (p : Port) (t : Tab) : Tab :=
  if t.owner.map Port.lane = some p then { t with claim := t.claim.map fun _ => 300 } else t

/-- A number is the first not in use, counting upward from a counter's value and wrapping from `top` to 1 (R25, R66, R118). -/
def FirstFrom (top : Nat) (used : Nat → Prop) (start n : Nat) : Prop :=
  ∃ k, k < top ∧ n = (start - 1 + k) % top + 1 ∧ ¬used n ∧ ∀ j, j < k → used ((start - 1 + j) % top + 1)

/-- A tab number is held (R21). -/
def State.numberHeld (s : State) (n : Nat) : Prop := ∃ i, (s.tab i).state ≠ .free ∧ (s.tab i).number = n

/-- A ticket number names a live ticket or a DONE ticket in a recall list (R66). -/
def State.numberOnTicket (s : State) (n : Nat) : Prop :=
  ∃ st, ∃ y ∈ (s.station st).queue ++ (s.station st).inWork.toList ++ (s.station st).stack ++ (s.station st).recalls,
    y.number = n

/-- An approval number is borne by an entry in the queue (R118). -/
def State.numberAsked (s : State) (n : Nat) : Prop := ∃ e ∈ s.approvals, e.number = n

/-- A result list after more results have joined its end: the last four stand (R129). -/
def joined (old more : List Result) : List Result :=
  if more = [] then old else (old ++ more).drop ((old ++ more).length - 4)

/-- Approval entries ended: out of the queue, their outcomes in their requesters' result lists in arrival order (R116, R129). -/
def State.ended (gone : List Entry) (v : Verdict) (s : State) : State :=
  { s with
    approvals := s.approvals.filter fun e => e ∉ gone
    results := tableOf fun l => joined (s.resultsOf l) ((gone.filter fun e => e.requester = l).map fun e =>
      { number := e.number, ask := e.ask, tab := e.tab, verdict := v, decidedAt := s.clock }) }

/-- APPROVAL_DONE to the requesters of the entries that ended (R129). -/
def toRequesters (gone : List Entry) : Raised := toLanes .approvalDone (gone.map Entry.requester)

/-- The UNDO_TENDER entries of a tab, in arrival order (R159). -/
def State.undosOf (s : State) (n : Nat) : List Entry := s.approvals.filter fun e => e.tab = n && (askShare e.ask).isSome

/-- A station whose live ticket of a number has lost one line and holds others (R78). -/
def Station.shortened (number line : Nat) (x : Station) : Station :=
  x.mapLive fun y => if y.number = number then { y with lines := y.lines.filter fun k => k ≠ line } else y

/-- A station whose in-work or set-aside ticket of a number is gone (R82, R108). -/
def Station.killed (number : Nat) (x : Station) : Station :=
  { x with
    inWork := x.inWork.filter fun y => y.number ≠ number
    stack := x.stack.filter fun y => y.number ≠ number }

/-- A tab with one of its lines VOIDED: no ticket number, no pending approval, the base lowered by its amount (R29, R30). -/
def Tab.struck (n : Nat) (x : Line) (t : Tab) : Tab :=
  { t with
    base := t.base - if x.comped then 0 else x.price * x.quantity
    lines := t.lines.set (n - 1) { x with state := .voided, ticket := none, pending := none } }

/-- A live ticket stands at a station in work or set aside, alone with its number there (R41, R66). -/
def State.inHand (s : State) (st : StationNo) (tk : Ticket) : Prop :=
  (∀ y ∈ (s.station st).queue, y.number ≠ tk.number)
    ∧ ∀ y ∈ (s.station st).inWork.toList ++ (s.station st).stack, y.number = tk.number → y = tk

/-- A station with its last reported rail brought up to date (R91). -/
def State.withRail (i : StationNo) (s : State) : State :=
  { s with stations := s.stations.set i { s.station i with rail := s.railOf i } }

/-- RAIL_CHANGED to the bound port of a station whose rail differs from the one last reported (R91). -/
def railRaised (i : StationNo) (s : State) : Raised :=
  if s.railOf i = (s.station i).rail then nobody else toLanes .railChanged (s.station i).port.toList

/-! ### Invariants -/

/-- The sum of the amounts of the lines of a tab that are not VOIDED. -/
def Tab.owed (t : Tab) : Nat := ((t.lines.filter fun l => l.state ≠ .voided).map Line.amount).sum

/-- Every running base is the sum of the amounts of the tab's lines that are not VOIDED (R30). -/
def BaseHolds (s : State) : Prop := ∀ i, (s.tab i).base = (s.tab i).owed

/-- The figures of an item are in range and agree (R1, R2). -/
def Item.sound (it : Item) : Bool :=
  it.reserved ≤ 9999 && it.count ≤ 9999
    && match it.mode with
      | .limited => it.reserved ≤ it.count
      | .unlimited => it.count = 0

def CatalogueHolds (s : State) : Prop := ∀ i, (s.item i).sound = true

/-- The token is with the office or a supervisor-capable TILL port; a port is supervisor-capable with role TILL alone and has a
bound station with role STATION alone; a bound station and its bound port name one another (R110, R167). -/
def PortTableHolds (s : State) : Prop :=
  (∀ l, s.token = .lane l → (s.port l).role = .till ∧ (s.port l).supervisor = true)
    ∧ (∀ l, (s.port l).supervisor = true → (s.port l).role = .till)
    ∧ (∀ l, (s.port l).bound.isSome = true → (s.port l).role = .station)
    ∧ ∀ l st, (s.port l).bound = some st ↔ (s.station st).port = some l

/-- The room a lane's transmit list keeps: with the frames an outstanding SPLIT and a rise of the pending set may still add, it
holds at most eight (R167). -/
def PortEntry.roomy (e : PortEntry) : Bool :=
  e.transmit.length + (if e.outstanding.isSome then 1 else 0) + (if e.pendingSet = 0 then 1 else 0) ≤ 8

def TransmitHolds (s : State) : Prop := ∀ l, (s.port l).roomy = true

/-- The books of a share: paid is the sum of what its tenders applied and at most the due, every tender applied something, at
most four stand, and the share is PAID exactly when paid equals the due (R153). -/
def Share.sound (sh : Share) : Bool :=
  sh.paid = (sh.tenders.map Tender.applied).sum && sh.paid ≤ sh.figures.due && sh.tenders.all (fun t => 1 ≤ t.applied)
    && sh.tenders.length ≤ 4 && decide (sh.state = .paid ↔ sh.paid = sh.figures.due)

def SharesHold (s : State) : Prop :=
  ∀ j, match s.shares.get j with
    | .held sh => sh.sound = true
    | .free | .reserved _ => True

/-- The lists of the part within their capacities: station queues 64, stacks 2, recall lists 8 (R85), lines 64 (R27), followers
4 (R45), approval entries 16, each with a number of its own (R116, R118), results 4 (R129), waiting splits 3 (R149). -/
def ListsHold (s : State) : Prop :=
  (∀ st, (s.station st).queue.length ≤ 64 ∧ (s.station st).stack.length ≤ 2 ∧ (s.station st).recalls.length ≤ 8)
    ∧ (∀ i, (s.tab i).lines.length ≤ 64 ∧ (s.tab i).followers.length ≤ 4)
    ∧ s.approvals.length ≤ 16 ∧ (s.approvals.map Entry.number).Nodup
    ∧ (∀ l, (s.resultsOf l).length ≤ 4) ∧ s.waiting.length ≤ 3

/-- The sum of the quantities of the ENTERED lines of an item on one tab. -/
def Tab.entered (m : ItemNo) (t : Tab) : Nat :=
  ((t.lines.filter fun x => x.state = .entered ∧ x.item = m).map Line.quantity).sum

/-- Every item's reserved quantity is the sum of the quantities of its ENTERED lines over all tabs (R2). -/
def ReservedHolds (s : State) : Prop :=
  ∀ m, (s.item m).reserved = ((List.finRange 128).map fun i => (s.tab i).entered m).sum

/-- The splits the engine has in hand: the one computed, then those waiting. -/
def State.jobs (s : State) : List SplitJob := (s.computing.map Computation.job).toList ++ s.waiting

/-- The lives of tabs agree with the engine and the close queue: only OPEN tabs have ENTERED lines (R147); each split in hand is
of a SETTLING tab of its own, its split not complete and no claim running (R148); the close queue names CLOSED tabs, each once
(R166); only SETTLING tabs have a settle owner (R21). -/
def TabsHold (s : State) : Prop :=
  (∀ i, (s.tab i).state ≠ .opened → ∀ x ∈ (s.tab i).lines, x.state ≠ .entered)
    ∧ (s.jobs.map SplitJob.tab).Nodup
    ∧ (∀ job ∈ s.jobs, ∃ i, s.findTab job.tab = some i ∧ (s.tab i).state = .settling ∧ (s.tab i).claim = none
        ∧ (s.tab i).splitComplete = false)
    ∧ s.closeQueue.Nodup
    ∧ (∀ n ∈ s.closeQueue, ∃ i, s.findTab n = some i ∧ (s.tab i).state = .closed)
    ∧ ∀ i, (s.tab i).owner ≠ none → (s.tab i).state = .settling

/-- An invariant that every step keeps, from any state that has it. -/
def Kept (inv : State → Prop) : Prop := ∀ s t, inv s → step s = .next t → inv t

/-! ### Figures of money in replies (R59, R60) -/

/-- Whether a field shows no money: an amount or a rate is 0. -/
def Field.hidesMoney : Field → Bool
  | .amount n => n = 0
  | .rate n => n = 0
  | .ident _ | .small _ | .count _ | .available _ | .stamp _ | .seconds _ | .number _ | .events _ | .flag _ | .code _
  | .presence _ | .listCount _ => true

/-- Whether a field is of another type than an amount or a rate. -/
def Field.isNotMoney : Field → Bool
  | .amount _ | .rate _ => false
  | .ident _ | .small _ | .count _ | .available _ | .stamp _ | .seconds _ | .number _ | .events _ | .flag _ | .code _
  | .presence _ | .listCount _ => true

end Sys2Proof.Machine
end

