-- ==== Sys2Proof/Certificates/Slice0/Obligations.lean ====
section
/-! DEFINITION. The statements for the provers. Where a statement says what a step answers, it gives the whole next state: what
it does not name is unchanged. -/

open Sys2Proof Sys2Proof.Machine

/-! ### The queue, power and the clock -/

/-- A step runs the command at the front of the queue on the state with the queue's rest, and on an empty queue the part idles
(the model's own queue: log entry 1). -/
def Obligations.StepTakesFrontCommand : Prop :=
  (∀ (c : Instr) (rest : List Instr) (s : State), s.pending = c :: rest → step s = exec c { s with pending := rest })
    ∧ ∀ s : State, s.pending = [] → step s = .next s

/-- Every command answers a next state in every state, and leaves the queue of waiting commands as it was (the queue is the
model's own: log entry 1). -/
def Obligations.EveryCommandCompletes : Prop :=
  ∀ (c : Instr) (s : State), ∃ t, exec c s = .next t ∧ t.pending = s.pending

/-- What a device reset leaves in every block (R186): items, modifiers, rates and priorities (R1, R3, R4, R5), FREE tab slots (R21)
and the tab counter (R25), stations (R85), ticket counter and fire sequence (R66, R67, R84), token, approvals, their counter and
results (R110, R116, R118, R129), the split engine (R149), share store and close queue (R153, R166), ports and office port
(R167, R168) with hunting receivers (R173), reply slot, position and REPLY_READY (R175), ATTN (R181) and the clock (R184). -/
def Obligations.ResetValues : Prop :=
  (∀ i, State.reset.item i =
    { state := .absent, price := 0, taxClass := 0, station := 0, group := 0, mode := .limited, count := 0, reserved := 0 })
    ∧ (∀ m, State.reset.modifiers.get m = none)
    ∧ (∀ c, State.reset.rates.get c = 0)
    ∧ (∀ g, State.reset.priorities.get g = .high)
    ∧ (∀ i, (State.reset.tab i).state = .free ∧ (State.reset.tab i).lines = [] ∧ (State.reset.tab i).base = 0
        ∧ (State.reset.tab i).live = 0 ∧ (State.reset.tab i).pin = none ∧ (State.reset.tab i).unlocked = []
        ∧ (State.reset.tab i).followers = [] ∧ (State.reset.tab i).split = none ∧ (State.reset.tab i).opener = none
        ∧ (State.reset.tab i).openedAt = 0 ∧ (State.reset.tab i).closedAt = none ∧ (State.reset.tab i).service = 0
        ∧ (State.reset.tab i).wrongTries = 0 ∧ (State.reset.tab i).owner = none ∧ (State.reset.tab i).claim = none)
    ∧ (∀ st, State.reset.station st =
        { state := .closed, alternate := none, port := none, holdLow := false, threshold := 0, queue := [], inWork := none
          stack := [], recalls := [], rail := (none, none) })
    ∧ (∀ l, State.reset.port l =
        { role := .off, bound := none, supervisor := false, notices := false, events := 0, mask := 0xFFF#12
          outstanding := none, transmit := [], receiver := .hunting })
    ∧ (∀ l, State.reset.resultsOf l = []) ∧ (∀ j, State.reset.shares.get j = .free)
    ∧ State.reset.tabCounter = 1 ∧ State.reset.ticketCounter = 1 ∧ State.reset.fireSeq = 0
    ∧ State.reset.approvalCounter = 1 ∧ State.reset.token = .office ∧ State.reset.approvals = []
    ∧ State.reset.computing = none ∧ State.reset.waiting = [] ∧ State.reset.closeQueue = []
    ∧ State.reset.officeEvents = 0 ∧ State.reset.officeMask = 0xFFF#12 ∧ State.reset.replySlot = none
    ∧ State.reset.replyPosition = 0 ∧ State.reset.officeReceiver = .hunting ∧ State.reset.attn = false
    ∧ State.reset.replyReady = false ∧ State.reset.clock = 0

/-- Power-on, the RESET pin and the RESET request cause a device reset, RESET without a reply (R186). While the pin is held the
blocks stand at their reset values and every other command changes nothing: the model's reading, log entry 8. That the waiting
commands stay is the model's choice too (log entry 1), as is the level the pin keeps (log entry 24); the count of free
values is the model's own (log entry 25). -/
def Obligations.PowerAndReset : Prop :=
  (∀ s : State, exec .powerOn s = .next { State.reset with resetPin := s.resetPin, draws := s.draws, pending := s.pending })
    ∧ (∀ s : State, exec .resetPinAsserted s =
        .next { State.reset with resetPin := true, draws := s.draws, pending := s.pending })
    ∧ (∀ s : State, exec .resetPin s = .next { State.reset with resetPin := false, draws := s.draws, pending := s.pending })
    ∧ (∀ (tag : Nat) (s : State), officeReady tag s = true →
        exec (.reset .office tag (.fields ())) s = .next { State.reset with draws := s.draws, pending := s.pending })
    ∧ ∀ (c : Instr) (s : State), s.resetPin = true → c ∉ [Instr.powerOn, Instr.resetPin, Instr.resetPinAsserted] →
        exec c s = .next s

/-- The 1-second tick: the clock one on with its wrap, every late and claim countdown one down, every lane frame in progress one
tick older, and nothing else (R106, R161, R173, R184). A countdown stays at 0 until its expiry is taken: log entry 5. -/
def Obligations.SecondTickCounts : Prop :=
  ∀ s : State, s.resetPin = false → ∃ t, exec .secondTick s = .next t
    ∧ t.clock = (if s.clock = 4294967295 then 0 else (s.clock + 1) % 4294967296)
    ∧ (∀ i, t.tab i = { s.tab i with claim := (s.tab i).claim.map fun n => n - 1 })
    ∧ (∀ i, t.station i =
        { s.station i with
          queue := (s.station i).queue.map fun x => { x with late := x.late.map fun n => n - 1 }
          inWork := (s.station i).inWork.map fun x => { x with late := x.late.map fun n => n - 1 }
          stack := (s.station i).stack.map fun x => { x with late := x.late.map fun n => n - 1 } })
    ∧ (∀ l, t.port l =
        { s.port l with
          receiver := match (s.port l).receiver with
            | .hunting => .hunting
            | .inFrame n => .inFrame (n + 1) })
    ∧ t = { s with clock := t.clock, tabs := t.tabs, stations := t.stations, ports := t.ports }

/-- A late expiry: the countdown absent, the late flag set, and TICKET_LATE to the station's bound port and the tab's followers
(R107). That it waits, at 0, to be taken as a step of its own: log entry 5. -/
def Obligations.LateExpiryMarksTicket : Prop :=
  ∀ (n : Nat) (st : StationNo) (place : TicketState) (t : Ticket) (i : Slot) (s : State),
    s.resetPin = false → s.findLive n = some (st, place, t) → t.late = some 0 → s.findTab t.tab = some i →
    exec (.lateExpiry n) s = .next
      (State.told (both (toLanes .ticketLate (s.station st).port.toList) (toLanes .ticketLate (s.tab i).followers))
        { s with
          stations := s.stations.set st ((s.station st).mapLive fun x =>
            if x.number = n ∧ x.late = some 0 then { x with late := none, lateFlag := true } else x) })

/-- A claim that lapses: the owner and the countdown gone and CLAIM_LAPSED to the former owner; with a tender standing the tab
stays SETTLING, with none its records are freed, it is OPEN again and its waiting UNDO_TENDER entries end STALE in arrival order
(R162, R159, R129). The notice to a port that two kinds reach: log entry 10. -/
def Obligations.ClaimLapseEndsOwnership : Prop :=
  ∀ (n : Nat) (i : Slot) (l : Lane) (s : State),
    s.resetPin = false → s.findTab n = some i → (s.tab i).claim = some 0 → (s.tab i).state = .settling →
    (s.tab i).owner = some l →
    ((s.sharesOf (s.tab i)).any (fun sh => sh.tenders ≠ []) = true →
      exec (.claimLapse n) s = .next
        (State.told (both (toPort .claimLapsed (.lane l)) (toLanes .tabChanged (s.tab i).followers))
          { s with tabs := s.tabs.set i { s.tab i with owner := none, claim := none } }))
    ∧ ((s.sharesOf (s.tab i)).any (fun sh => sh.tenders ≠ []) = false → (s.approvals.map Entry.number).Nodup →
      exec (.claimLapse n) s = .next
        (State.told
          (both (both (toPort .claimLapsed (.lane l)) (toLanes .tabChanged (s.tab i).followers))
            (toRequesters (s.undosOf n)))
          (State.ended (s.undosOf n) .stale
            { s with
              tabs := s.tabs.set i { s.tab i with state := .opened, split := none, owner := none, claim := none }
              shares := tableOf fun j => if j ∈ (s.tab i).shareRefs then .free else s.shares.get j })))

/-! ### Frames -/

/-- The frames that are dropped: each leaves its port hunting with FRAME_ERROR, gets no reply, and changes nothing else; at the
office its bytes have clocked as many of a waiting reply out, and what is left of the reply is kept (R167, R173, R175, R176). The
bytes of a frame that CS_DEASSERTED or OFFICE_REQUEST_OVERRUN drops are a free value, within what the rule allows: log entry
25. -/
def Obligations.BadFramesAreDropped : Prop :=
  ∀ s : State, s.resetPin = false →
    (∀ (p : Port) (n : Nat), n < 2 ∨ 250 < n → exec (.lengthError p n) s = .next ((s.frameClocked p 2).dropped p))
    ∧ (∀ (p : Port) (n : Byte) (rest : List Byte) (crc : BitVec 16), 2 ≤ n.toNat → n.toNat ≤ 250 →
        rest.length = n.toNat → crc16 (n :: rest) ≠ crc →
        exec (.crcMismatch p (n :: rest) crc) s = .next ((s.frameClocked p (n.toNat + 4)).dropped p))
    ∧ (∀ (p : Port) (tag kind : Nat) (body : List Byte), tag = 0 ∨ 0x80 ≤ kind →
        exec (.badTagOrKind p tag ⟨kind, body⟩) s = .next ((s.frameClocked p (body.length + 6)).dropped p))
    ∧ (∀ (l : Lane) (n : Nat), (s.port l).receiver = .inFrame n → 2 ≤ n →
        exec (.frameTimeout l) s = .next (s.dropped (.lane l)))
    ∧ (∀ n : Nat, s.officeReceiver = .inFrame n →
        ∃ k, k ≤ 252 ∧ exec .csDeasserted s = .next ((State.clockedOut k { s with draws := s.draws + 1 }).dropped .office))
    ∧ (∀ l : Lane, 6 ≤ (s.port l).transmit.length → exec (.transmitListFull l) s = .next (s.dropped (.lane l)))
    ∧ ∀ f : Frame, s.replySlot = some f → s.replyPosition + (6 - s.startCounted) < (frameBytes f).length →
        ∃ k, 6 ≤ k + s.startCounted ∧ k + s.startCounted ≤ 254 ∧ s.replyPosition + k < (frameBytes f).length
          ∧ exec .officeRequestOverrun s = .next
            (State.dropped .office { s with replyPosition := s.replyPosition + k, draws := s.draws + 1 })

/-- A start byte puts a hunting port in a frame with no tick met, and at the office clocks, with the bytes discarded before it, as
many bytes of a waiting reply out; a frame sent leaves the front of its transmit list; the last byte of the office reply empties
the slot; a kind the code table does not have is answered UNSUPPORTED with an empty body. An office request that comes while a
reply waits clocks as many of its bytes out as it has itself: with a part left it is dropped, and otherwise, be it at its last
byte, the slot is empty first and the request is taken (R167, R173, R175, R176). The model's reading of the rows: log entry
25. -/
def Obligations.FramesBeginAndEnd : Prop :=
  ∀ s : State, s.resetPin = false →
    (∀ l : Lane, (s.port l).receiver = .hunting →
      exec (.startByteReceived (.lane l)) s = .next { s with ports := s.ports.set l { s.port l with receiver := .inFrame 0 } })
    ∧ (∀ skipped : Nat, s.officeReceiver = .hunting →
      exec (.startByteReceived (.office skipped)) s = .next
        { s.clockedOut (skipped + 1) with officeReceiver := .inFrame 0 })
    ∧ (∀ (l : Lane) (f : Frame) (rest : List Frame), (s.port l).transmit = f :: rest →
      exec (.frameSent l) s = .next { s with ports := s.ports.set l { s.port l with transmit := rest } })
    ∧ (exec .replyClockedOut s = .next { s with replySlot := none, replyPosition := 0 })
    ∧ (∀ (p : Port) (tag kind : Nat) (body : List Byte), tag ≠ 0 → kind < 0x80 → (∀ k, kindCode k ≠ kind) →
      overdue p s = false → congested p s = false →
      exec (.unknownKind p tag ⟨kind, body⟩) s = .next (s.answered p tag kind .unsupported [] nobody))
    ∧ ∀ (c : Instr) (tag : Nat) (bytes : List Byte) (f : Frame), s.replySlot = some f →
      ((∃ k, c = requestOf k .office tag bytes)
        ∨ ∃ kind, c = .unknownKind .office tag ⟨kind, bytes⟩ ∧ tag ≠ 0 ∧ kind < 0x80 ∧ ∀ k, kindCode k ≠ kind) →
      (let position := s.replyPosition + (bytes.length + 6 - s.startCounted)
       exec c s =
        if position < (frameBytes f).length then .next (State.dropped .office { s with replyPosition := position })
        else exec c { s with replySlot := none, replyPosition := 0 })

/-- A request that reaches no other block: BAD_FIELD for a body that cannot be read, BUSY while a SPLIT is outstanding,
UNSUPPORTED for a port that may not send the kind; each changes nothing but the reply (R176, R177). `requestOf` reads the bytes
of the body, with its presence bytes by log entry 13 and the body of PAUSE and OPEN by log entry 15. -/
def Obligations.RequestsTurnedAway : Prop :=
  ∀ (k : Kind) (p : Port) (tag : Nat) (bytes : List Byte) (s : State),
    s.resetPin = false → tag ≠ 0 → overdue p s = false → congested p s = false →
    (frameOf (requestOf k p tag bytes) = none →
      exec (requestOf k p tag bytes) s = .next (s.answered p tag (kindCode k) .badField [] nobody))
    ∧ (frameOf (requestOf k p tag bytes) ≠ none → awaitsReply p s = true →
      exec (requestOf k p tag bytes) s = .next (s.answered p tag (kindCode k) .busy [] nobody))
    ∧ (frameOf (requestOf k p tag bytes) ≠ none → awaitsReply p s = false → mayRequest p k s = false →
      exec (requestOf k p tag bytes) s = .next (s.answered p tag (kindCode k) .unsupported [] nobody))

/-- For every well-formed request, reading the bytes of its frame gives the request again (R172, R174, R176, R178). Where a field
that may be absent stands in a body: log entry 13; the body of PAUSE and OPEN: log entry 15. -/
def Obligations.FrameRoundTrip : Prop :=
  ∀ (c : Instr) (p : Port) (bytes : List Byte), c.wellFormed = true → portOf c = some p → frameOf c = some bytes →
    commandOf p bytes = some c

/-! ### Ports, events and the clock -/

/-- SET_PORT: one that keeps the standing replaces the flags alone, and takes the token back from a holder that is no longer
supervisor-capable; the three checks refuse with BAD_FIELD (R169, R113). -/
def Obligations.SetPortKeepsStanding : Prop :=
  ∀ (tag : Nat) (f : SetPortFields) (l : Lane) (s : State), officeReady tag s = true →
    (15 < f.port ∨ 2 < f.role ∨ (f.role = 2 ∧ (f.station = none ∨ ∃ n, f.station = some n ∧ 7 < n))
        ∨ (f.role ≠ 2 ∧ f.station ≠ none) →
      exec (.setPort .office tag (.fields f)) s = .next (s.answered .office tag 0x50 .badField [] nobody))
    ∧ (f.port = l.val → f.role = roleCode (s.port l).role → f.station = (s.port l).bound.map Fin.val →
      ((s.port l).bound.isSome = true ↔ (s.port l).role = .station) →
      (let sup := f.supervisor && (s.port l).role = .till
       let e : PortEntry := { s.port l with supervisor := sup, notices := f.notices }
       let body := [Field.code f.role] ++ optField (fun st : StationNo => [Field.small st.val]) e.bound
          ++ [Field.flag sup, Field.flag f.notices, Field.events e.mask]
          ++ optField (fun q : Nat × Kind => [Field.small q.1, Field.code (kindCode q.2)]) e.outstanding
       exec (.setPort .office tag (.fields f)) s = .next
        (if s.token = .lane l ∧ sup = false then
          State.answered .office tag 0x50 .ok body
            (both (toPort .tokenTaken (.lane l))
              (both (toPort .tokenGiven .office) (if s.approvals = [] then nobody else toPort .approvalWaiting .office)))
            { s with ports := s.ports.set l e, token := .office }
        else State.answered .office tag 0x50 .ok body nobody { s with ports := s.ports.set l e })))

/-- SET_PORT as a change of standing, for a lane that owns no tab and does not hold the token: the port reset, then role and
flags; a station with no other bound port is bound and reports its rail; a station that has one refuses, and the port keeps its
role and flags (R170, R171, R87, R88). That the notice of that rail goes by the new flags is the model's choice: log entry
30. -/
def Obligations.SetPortChangesStanding : Prop :=
  ∀ (tag : Nat) (f : SetPortFields) (l : Lane) (s : State),
    officeReady tag s = true → f.port = l.val → s.token ≠ .lane l → (∀ i, (s.tab i).owner ≠ some l) →
    (let e : PortEntry :=
        { s.port l with
          bound := none, events := 0, mask := 0xFFF#12, outstanding := none, transmit := (s.port l).transmit.take 1
          receiver := .hunting }
     let left : State :=
        { s with
          tabs := tableOf fun i =>
            { s.tab i with
              unlocked := (s.tab i).unlocked.filter fun x => x ≠ l
              followers := (s.tab i).followers.filter fun x => x ≠ l }
          stations := tableOf fun st =>
            { s.station st with port := if (s.station st).port = some l then none else (s.station st).port }
          results := s.results.set l [] }
     let reply (status : Status) (x : PortEntry) (r : Raised) (t : State) : State :=
        State.answered .office tag 0x50 status
          ([Field.code (roleCode x.role)] ++ optField (fun st : StationNo => [Field.small st.val]) x.bound
            ++ [Field.flag x.supervisor, Field.flag x.notices, Field.events 0xFFF#12, Field.presence false])
          r { t with ports := s.ports.set l x }
     (∀ r : Role, r ≠ .station → f.role = roleCode r → f.station = none → r ≠ (s.port l).role →
        (let x : PortEntry := { e with role := r, supervisor := f.supervisor && r = .till, notices := f.notices }
         exec (.setPort .office tag (.fields f)) s = .next (reply .ok x nobody left)))
     ∧ ∀ st : StationNo, f.role = 2 → f.station = some st.val →
        ((s.port l).role ≠ .station ∨ (s.port l).bound ≠ some st) →
        (((left.station st).port = none →
          (let x : PortEntry := { e with role := .station, supervisor := false, notices := f.notices, bound := some st }
           exec (.setPort .office tag (.fields f)) s = .next
            (reply .ok x (if s.railOf st = (none, none) then nobody else toLanes .railChanged [l])
              { left with stations := left.stations.set st { s.station st with port := some l, rail := s.railOf st } })))
         ∧ ((left.station st).port ≠ none →
          exec (.setPort .office tag (.fields f)) s = .next (reply .stationBusy e nobody left))))

/-- After any change of standing the port stands in no unlock set and no follower list, owns no tab, does not hold the token,
awaits no reply and has no results, and of the frames it had the one being sent alone is left, with at most the notice of a rail
after it (R170, R88). -/
def Obligations.PortResetClears : Prop :=
  ∀ (tag : Nat) (f : SetPortFields) (l : Lane) (s t : State),
    officeReady tag s = true → resetLane f s = some l → exec (.setPort .office tag (.fields f)) s = .next t →
    (∀ i, l ∉ (t.tab i).unlocked ∧ l ∉ (t.tab i).followers ∧ (t.tab i).owner ≠ some l) ∧ t.token ≠ .lane l
      ∧ (t.port l).outstanding = none ∧ t.resultsOf l = [] ∧ (t.port l).mask = 0xFFF#12
      ∧ ((t.port l).transmit = (s.port l).transmit.take 1
        ∨ (t.port l).transmit = (s.port l).transmit.take 1 ++ [.notice (eventBit .railChanged)])

/-- EVENTS returns the whole event set and the mask and empties the set; SET_MASK replaces the mask, with the notice of a rise it
causes (R182, R183). -/
def Obligations.EventsAndMask : Prop :=
  ∀ (tag : Nat) (s : State),
    (∀ l : Lane, joinReady l tag s = true →
      exec (.events (.lane l) tag (.fields ())) s = .next
        (State.answered (.lane l) tag 0x51 .ok [Field.events (s.port l).events, Field.events (s.port l).mask] nobody
          { s with ports := s.ports.set l { s.port l with events := 0 } }))
    ∧ (officeReady tag s = true →
      exec (.events .office tag (.fields ())) s = .next
        (State.answered .office tag 0x51 .ok [Field.events s.officeEvents, Field.events s.officeMask] nobody
          { s with officeEvents := 0 }))
    ∧ (∀ (l : Lane) (n : Nat), joinReady l tag s = true → n < 65536 →
      (let m := BitVec.ofNat 12 (n % 4096)
       let e := s.port l
       let rises := e.notices = true ∧ e.events &&& e.mask = 0 ∧ e.events &&& m ≠ 0
       exec (.setMask (.lane l) tag (.fields n)) s = .next
        { s with
          ports := s.ports.set l
            { e with
              mask := m, receiver := .hunting
              transmit := e.transmit ++ [Frame.reply tag 0xD2 .ok [Field.events m]]
                ++ if rises then [Frame.notice (e.events &&& m)] else [] } }))
    ∧ ∀ n : Nat, officeReady tag s = true → n < 65536 →
      exec (.setMask .office tag (.fields n)) s = .next
        (State.answered .office tag 0x52 .ok [Field.events (BitVec.ofNat 12 (n % 4096))] nobody
          { s with officeMask := BitVec.ofNat 12 (n % 4096) })

/-- SET_CLOCK replaces the clock value alone; STATUS changes nothing and carries the occupancy of every block (R184, R185). -/
def Obligations.ClockAndStatus : Prop :=
  ∀ (tag : Nat) (s : State), officeReady tag s = true →
    (∀ n : Nat, n < 4294967296 →
      exec (.setClock .office tag (.fields n)) s = .next
        (State.answered .office tag 0x53 .ok [Field.stamp n] nobody { s with clock := n }))
    ∧ exec (.status .office tag (.fields ())) s = .next
      (s.answered .office tag 0x54 .ok
        ([Field.stamp s.clock, Field.number ((List.finRange 128).filter fun i => (s.tab i).state ≠ .free).length,
            Field.number ((List.finRange 8).map fun st =>
              (s.station st).queue.length + (s.station st).inWork.toList.length + (s.station st).stack.length).sum]
          ++ (List.finRange 8).flatMap (fun st =>
            [Field.code (stationStateCode (s.station st).state), Field.flag (s.station st).port.isSome,
              Field.number (s.station st).queue.length, Field.number (s.dispatch st).length,
              Field.flag (s.station st).inWork.isSome, Field.number (s.station st).stack.length])
          ++ [Field.number s.approvals.length,
            Field.number ((List.finRange 384).filter fun j => s.shares.get j = .free).length,
            Field.flag s.computing.isSome, Field.number s.waiting.length, Field.number s.closeQueue.length,
            Field.small (holderCode s.token)])
        nobody)

/-! ### The catalogue -/

/-- LOAD_ITEM within its ranges: the record replaced and LISTED, the count brought into range, the reserved quantity kept, and
AVAILABILITY_CHANGED to every TILL port exactly where R16 has it (R6, R7, R16, R17). -/
def Obligations.LoadItemReplacesRecord : Prop :=
  ∀ (tag : Nat) (f : LoadItemFields) (i : ItemNo) (c : TaxClass) (st : StationNo) (g : GroupNo) (s : State),
    officeReady tag s = true → f.item = i.val → f.price ≤ 99999 → f.taxClass = c.val → f.station = st.val →
    f.group = g.val → f.mode ≤ 1 →
    (let old := s.item i
     let kept := if f.mode = 0 then max (min f.count 9999) old.reserved else 0
     let it : Item :=
        { state := .listed, price := f.price, taxClass := c, station := st, group := g
          mode := if f.mode = 0 then .limited else .unlimited, count := kept, reserved := old.reserved }
     let wasOut := old.mode = .limited ∧ old.count ≤ old.reserved
     let isOut := f.mode = 0 ∧ kept ≤ old.reserved
     exec (.loadItem .office tag (.fields f)) s = .next
      (State.answered .office tag 0x40 (if f.mode = 0 ∧ kept ≠ f.count then .clamped else .ok)
        [Field.code 1, Field.count kept, Field.count old.reserved,
          Field.available (if f.mode = 0 then some (kept - old.reserved) else none)]
        (if old.state ≠ .listed ∨ ¬(wasOut ↔ isOut) then toTills .availabilityChanged s else nobody)
        { s with items := s.items.set i it }))

/-- WITHDRAW_ITEM of a LISTED item changes its state alone; SET_COUNT from a port with authority makes the item LIMITED with its
count brought into range (R8, R9, R10, R16). -/
def Obligations.WithdrawAndCount : Prop :=
  ∀ (tag : Nat) (i : ItemNo) (s : State),
    (officeReady tag s = true → (s.item i).state = .listed →
      exec (.withdrawItem .office tag (.fields i.val)) s = .next
        (State.answered .office tag 0x41 .ok [Field.code 2] (toTills .availabilityChanged s)
          { s with items := s.items.set i { s.item i with state := .withdrawn } }))
    ∧ ∀ (p : Port) (count : Nat), anyReady p tag s = true → (s.item i).state ≠ .absent →
      (p = .office ∨ s.token = p
        ∨ ∃ l, p = .lane l ∧ (s.port l).role = .station ∧ (s.port l).bound = some (s.item i).station) →
      (let old := s.item i
       let kept := max (min count 9999) old.reserved
       let wasOut := old.mode = .limited ∧ old.count ≤ old.reserved
       let isOut := kept ≤ old.reserved
       exec (.setCount p tag (.fields ⟨i.val, count⟩)) s = .next
        (State.answered p tag 0x45 (if kept ≠ count then .clamped else .ok)
          [Field.code (itemStateCode old.state), Field.count kept, Field.count old.reserved,
            Field.available (some (kept - old.reserved))]
          (if old.state = .listed ∧ ¬(wasOut ↔ isOut) then toTills .availabilityChanged s else nobody)
          { s with items := s.items.set i { old with mode := .limited, count := kept } }))

/-- LOAD_MODIFIER and SET_TAX_RATE: the record replaced within its range, BAD_FIELD and nothing changed outside it.
SET_GROUP_PRIORITY: the entry replaced, every station's rail brought up to date, and RAIL_CHANGED to the bound ports of those
whose rail differs (R3, R4, R5, R91). -/
def Obligations.CatalogueTablesAreReplaced : Prop :=
  ∀ (tag : Nat) (s : State), officeReady tag s = true →
    (∀ (m : Fin 64) (d : Int), -9999 ≤ d → d ≤ 9999 →
      exec (.loadModifier .office tag (.fields ⟨m.val, d⟩)) s = .next
        (State.answered .office tag 0x42 .ok [] nobody { s with modifiers := s.modifiers.set m (some d) }))
    ∧ (∀ (code : Nat) (d : Int), 63 < code ∨ d < -9999 ∨ 9999 < d →
      exec (.loadModifier .office tag (.fields ⟨code, d⟩)) s = .next (s.answered .office tag 0x42 .badField [] nobody))
    ∧ (∀ (c : TaxClass) (rate : Nat), rate ≤ 2500 →
      exec (.setTaxRate .office tag (.fields ⟨c.val, rate⟩)) s = .next
        (State.answered .office tag 0x43 .ok [] nobody { s with rates := s.rates.set c rate }))
    ∧ (∀ (c rate : Nat), 3 < c ∨ 2500 < rate →
      exec (.setTaxRate .office tag (.fields ⟨c, rate⟩)) s = .next (s.answered .office tag 0x43 .badField [] nobody))
    ∧ ∀ (g : GroupNo) (pr : Priority),
      (let s' : State := { s with priorities := s.priorities.set g pr }
       exec (.setGroupPriority .office tag (.fields ⟨g.val, priorityCode pr⟩)) s = .next
        (State.answered .office tag 0x44 .ok []
          (toLanes .railChanged ((List.finRange 8).filterMap fun st =>
            if s'.railOf st = (s.station st).rail then none else (s.station st).port))
          { s' with stations := tableOf fun st => { s.station st with rail := s'.railOf st } }))

/-- AVAILABILITY, in each of its cases: the first 100 out items not below the first item number, and the next of them; BAD_FIELD
for a number above 511; UNSUPPORTED for a port with role OFF; nothing changes (R18). -/
def Obligations.AvailabilityPage : Prop :=
  ∀ (tag first : Nat) (s : State),
    (∀ p : Port, anyReady p tag s = true →
      (let out := (List.finRange 512).filter fun i =>
          first ≤ i.val ∧ (s.item i).state = .listed ∧ (s.item i).mode = .limited ∧ (s.item i).count ≤ (s.item i).reserved
       exec (.availability p tag (.fields first)) s = .next
        (if 511 < first then s.answered p tag 0x46 .badField [] nobody
        else
          s.answered p tag 0x46 .ok
            ([Field.listCount (min 100 out.length)] ++ (out.take 100).map (fun i => Field.ident i.val)
              ++ match out.drop 100 with
                | [] => [Field.presence false]
                | i :: _ => [Field.presence true, Field.ident i.val])
            nobody)))
    ∧ ∀ l : Lane, laneReady l tag s = true → (s.port l).role = .off →
      exec (.availability (.lane l) tag (.fields first)) s = .next (s.answered (.lane l) tag 0x46 .unsupported [] nobody)

/-! ### Tabs -/

/-- OPEN_TAB: the lowest FREE slot takes a tab with the first number not held, counting upward from the counter with its wrap,
opened by its port alone (R25, R26). -/
def Obligations.OpenTabFillsSlot : Prop :=
  ∀ (l : Lane) (tag : Nat) (f : OpenTabFields) (i : Slot) (s : State),
    tillReady l tag s = true → (s.tab i).state = .free → (∀ j, j < i → (s.tab j).state ≠ .free) → f.service ≤ 2500 →
    (∀ n, f.pin = some n → n ≤ 999999) → 1 ≤ s.tabCounter → s.tabCounter ≤ 9999 →
    ∃ n, 1 ≤ n ∧ n ≤ 9999 ∧ (∀ j, (s.tab j).state = .free ∨ (s.tab j).number ≠ n)
      ∧ (s.findTab s.tabCounter = none → n = s.tabCounter) ∧ FirstFrom 9999 s.numberHeld s.tabCounter n
      ∧ exec (.openTab (.lane l) tag (.fields f)) s = .next
        (State.answered (.lane l) tag 0x01 .ok [Field.ident n] nobody
          { s with
            tabCounter := if n = 9999 then 1 else n + 1
            tabs := s.tabs.set i
              { number := n, state := .opened, opener := some l, openedAt := s.clock, closedAt := none
                service := f.service, pin := f.pin, wrongTries := 0, unlocked := [l], followers := [l], lines := []
                base := 0, live := 0, owner := none, claim := none, split := none } })

/-- TAB_VIEW and SHARE_VIEW are answered OK and change nothing but the settle claim of the owner that asks; TAB_VIEW carries at
most six lines from the first line number, and the next line's number (R32, R154, R161). -/
def Obligations.TabAndShareViews : Prop :=
  ∀ (p : Port) (tag : Nat) (f : TabPageFields) (i : Slot) (s : State), anyReady p tag s = true → s.findTab f.tab = some i →
    (let t := (s.tab i).named p
     let s' : State := { s with tabs := s.tabs.set i t }
     (1 ≤ f.first → f.first ≤ 64 →
      (let rest := t.numbered.drop (f.first - 1)
       exec (.tabView p tag (.fields f)) s = .next
        (s'.answered p tag 0x02 .ok
          (tabHeader p t s ++ [Field.listCount (min 6 rest.length)] ++ (rest.take 6).flatMap (lineFields p t s)
            ++ if 6 < rest.length then [Field.presence true, Field.small (f.first + 6)] else [Field.presence false])
          nobody)))
     ∧ ∀ r, t.split = some r → 1 ≤ f.first → f.first ≤ 24 →
      ∃ body, exec (.shareView p tag (.fields f)) s = .next (s'.answered p tag 0x31 .ok body nobody)
        ∧ (r.totals = none → body = splitHeader (figure p t s) t r ++ [Field.presence false, Field.presence false])
        ∧ ∀ x j sh, r.totals = some x → s.shareAt t f.first = some (j, sh) →
          body = splitHeader (figure p t s) t r ++ Field.presence true :: shareFields (figure p t s) sh
            ++ if f.first < r.count then [Field.presence true, Field.small (f.first + 1)] else [Field.presence false])

/-- ADD_LINE within its checks: the quantity reserved, one ENTERED line appended at the effective unit price, the base raised by
its amount, TAB_CHANGED to the followers, AVAILABILITY_CHANGED where the item becomes out (R28, R34, R35, R12). The notice to a
port that both kinds reach: log entry 10. -/
def Obligations.AddLineEntersLine : Prop :=
  ∀ (l : Lane) (tag : Nat) (f : AddLineFields) (i : Slot) (n : ItemNo) (q seat : Nat) (ds : List Int) (s : State),
    tillReady l tag s = true → s.findTab f.tab = some i → ((s.tab i).pin = none ∨ l ∈ (s.tab i).unlocked) →
    (s.tab i).state = .opened → (s.tab i).lines.length < 64 → f.item = n.val → (s.item n).state = .listed →
    f.quantity = some q → 1 ≤ q → q ≤ 99 → f.seat = some seat → seat ≤ 24 → f.mods.length ≤ 4 →
    f.mods.map (fun c => (fin? 64 c).bind fun m => s.modifiers.get m) = ds.map some →
    q ≤ (match (s.item n).mode with
      | .limited => (s.item n).count - (s.item n).reserved
      | .unlimited => 9999 - (s.item n).reserved) →
    (let it := s.item n
     let t := s.tab i
     let raw : Int := (it.price : Int) + ds.sum
     let price := min raw.toNat 99999
     t.base + price * q ≤ 50000000 →
     exec (.addLine (.lane l) tag (.fields f)) s = .next
      (State.answered (.lane l) tag 0x03 (if raw < 0 ∨ 99999 < raw then .clamped else .ok)
        [Field.small (t.lines.length + 1), Field.amount price, Field.amount (price * q),
          Field.available (match it.mode with
            | .limited => some (it.count - (it.reserved + q))
            | .unlimited => none)]
        (both (toLanes .tabChanged t.followers)
          (if it.mode = .limited ∧ it.count = it.reserved + q then toTills .availabilityChanged s else nobody))
        { s with
          items := s.items.set n { it with reserved := it.reserved + q }
          tabs := s.tabs.set i
            { t.named (.lane l) with
              base := t.base + price * q
              lines := t.lines ++
                [{ item := n, quantity := q, seat := seat, mods := f.mods, price := price, taxClass := it.taxClass
                   station := it.station, group := it.group, state := .entered, comped := false, pending := none
                   ticket := none }] } }))

/-- VOID_LINE of an ENTERED line: VOIDED at once, its quantity released, the base lowered by its amount (R36, R37, R13). A
VOID_LINE refused before a line was found carries the line number and no state (R40; the layout: log entry 14). The notice to a
port that two kinds reach: log entry 10. -/
def Obligations.VoidEnteredLine : Prop :=
  (∀ (l : Lane) (tag : Nat) (f : VoidLineFields) (s : State), tillReady l tag s = true →
    (s.findTab f.tab = none →
      exec (.voidLine (.lane l) tag (.fields f)) s = .next (s.answered (.lane l) tag 0x04 .noTab [Field.small f.line] nobody))
    ∧ ∀ i : Slot, s.findTab f.tab = some i →
      (let t := s.tab i
       let refused (status : Status) : Host.Outcome State Fault Refusal := .next
        (State.answered (.lane l) tag 0x04 status [Field.small f.line] nobody
          { s with tabs := s.tabs.set i (t.named (.lane l)) })
       (t.pin ≠ none → l ∉ t.unlocked → exec (.voidLine (.lane l) tag (.fields f)) s = refused .locked)
       ∧ ((t.pin = none ∨ l ∈ t.unlocked) →
         (t.state = .settling → exec (.voidLine (.lane l) tag (.fields f)) s = refused .tabSettling)
         ∧ (t.state = .closed ∨ t.state = .exported → exec (.voidLine (.lane l) tag (.fields f)) s = refused .wrongState)
         ∧ (t.state = .opened → (f.line = 0 ∨ t.lines.length < f.line) →
           exec (.voidLine (.lane l) tag (.fields f)) s = refused .badField))))
  ∧ ∀ (l : Lane) (tag : Nat) (f : VoidLineFields) (i : Slot) (x : Line) (s : State),
    tillReady l tag s = true → s.findTab f.tab = some i → ((s.tab i).pin = none ∨ l ∈ (s.tab i).unlocked) →
    (s.tab i).state = .opened → 1 ≤ f.line → (s.tab i).lines[f.line - 1]? = some x → x.state = .entered →
    x.pending = none →
    (let t := s.tab i
     let it := s.item x.item
     let wasOut := it.mode = .limited ∧ it.count ≤ it.reserved
     let isOut := it.mode = .limited ∧ it.count ≤ it.reserved - x.quantity
     exec (.voidLine (.lane l) tag (.fields f)) s = .next
      (State.answered (.lane l) tag 0x04 .ok [Field.small f.line, Field.code 3]
        (both (toLanes .tabChanged t.followers)
          (if it.state = .listed ∧ ¬(wasOut ↔ isOut) then toTills .availabilityChanged s else nobody))
        { s with
          items := s.items.set x.item { it with reserved := it.reserved - x.quantity }
          tabs := s.tabs.set i
            { t.named (.lane l) with
              base := t.base - if x.comped then 0 else x.price * x.quantity
              lines := t.lines.set (f.line - 1) { x with state := .voided, ticket := none } } }))

/-- VOID_LINE of a FIRED line on a QUEUED ticket: the line is pulled back and a LIMITED count rises, not above 9,999. A ticket
with other lines keeps its place with those that remain; one left empty is withdrawn, its tab has one live ticket less, and the
station's rail is brought up to date (R38, R78, R79, R80, R15). The notice to a port that two kinds reach: log entry 10. -/
def Obligations.PullBackFromQueuedTicket : Prop :=
  ∀ (l : Lane) (tag : Nat) (f : VoidLineFields) (i : Slot) (x : Line) (tk : Ticket) (st : StationNo) (n : Nat) (s : State),
    tillReady l tag s = true → s.findTab f.tab = some i → ((s.tab i).pin = none ∨ l ∈ (s.tab i).unlocked) →
    (s.tab i).state = .opened → 1 ≤ f.line → (s.tab i).lines[f.line - 1]? = some x → x.state = .fired →
    x.pending = none → x.ticket = some n → s.findLive n = some (st, .queued, tk) →
    (∀ y ∈ (s.station st).stack ++ (s.station st).inWork.toList, y.number ≠ n) →
    (∀ y ∈ (s.station st).queue, y.number = n → y = tk) →
    (let t := s.tab i
     let it := s.item x.item
     let grown := if it.mode = .limited then min (it.count + x.quantity) 9999 else it.count
     let wasOut := it.mode = .limited ∧ it.count ≤ it.reserved
     let isOut := it.mode = .limited ∧ grown ≤ it.reserved
     let raised := both (toLanes .tabChanged t.followers)
        (if it.state = .listed ∧ ¬(wasOut ↔ isOut) then toTills .availabilityChanged s else nobody)
     (∀ other, other ∈ tk.lines → other ≠ f.line →
      exec (.voidLine (.lane l) tag (.fields f)) s = .next
       (State.answered (.lane l) tag 0x04 .ok [Field.small f.line, Field.code 3] raised
        { s with
          items := s.items.set x.item { it with count := grown }
          stations := s.stations.set st
            { s.station st with
              queue := (s.station st).queue.map fun y =>
                if y.number = n then { y with lines := y.lines.filter fun k => k ≠ f.line } else y }
          tabs := s.tabs.set i
            { t.named (.lane l) with
              base := t.base - if x.comped then 0 else x.price * x.quantity
              lines := t.lines.set (f.line - 1) { x with state := .voided, ticket := none } } }))
     ∧ ((∀ other ∈ tk.lines, other = f.line) →
      (let s' : State :=
        { s with
          items := s.items.set x.item { it with count := grown }
          stations := s.stations.set st
            { s.station st with queue := (s.station st).queue.filter fun y => y.number ≠ n }
          tabs := s.tabs.set i
            { t.named (.lane l) with
              base := t.base - if x.comped then 0 else x.price * x.quantity
              live := t.live - 1
              lines := t.lines.set (f.line - 1) { x with state := .voided, ticket := none } } }
       exec (.voidLine (.lane l) tag (.fields f)) s = .next
        (State.answered (.lane l) tag 0x04 .ok [Field.small f.line, Field.code 3] (both raised (railRaised st s'))
          (s'.withRail st)))))

/-- VOID_LINE of a FIRED line whose ticket is in work or set aside. From a till without the token an entry joins the end of the
queue, the line is marked with its number and stays FIRED, and APPROVAL_WAITING goes to the holder; with 16 entries waiting it is
refused. From the holder it is applied at once: the line VOIDED and off its ticket, and a ticket left empty killed with
TICKET_KILLED to the bound port (R39, R40, R81, R82, R108, R117, R118). The notice to a port that two kinds reach: log entry 10;
the reply's layout: log entry 14. -/
def Obligations.VoidInWorkIsQueued : Prop :=
  ∀ (l : Lane) (tag : Nat) (f : VoidLineFields) (i : Slot) (x : Line) (tk : Ticket) (st : StationNo) (n : Nat)
    (place : TicketState) (s : State),
    tillReady l tag s = true → s.findTab f.tab = some i → ((s.tab i).pin = none ∨ l ∈ (s.tab i).unlocked) →
    (s.tab i).state = .opened → 1 ≤ f.line → (s.tab i).lines[f.line - 1]? = some x → x.state = .fired →
    x.pending = none → x.ticket = some n → s.findLive n = some (st, place, tk) → place ≠ .queued →
    (let t := s.tab i
     (∀ number : Nat, s.token ≠ .lane l → s.approvals.length < 16 → 1 ≤ s.approvalCounter → s.approvalCounter ≤ 255 →
      FirstFrom 255 s.numberAsked s.approvalCounter number →
      exec (.voidLine (.lane l) tag (.fields f)) s = .next
       (State.answered (.lane l) tag 0x04 .queued [Field.small f.line, Field.code 1, Field.small number]
        (both (toLanes .tabChanged t.followers) (toPort .approvalWaiting s.token))
        { s with
          approvals := s.approvals ++
            [{ number := number, ask := .voidFired f.line, requester := l, tab := t.number, reason := 0
               queuedAt := s.clock }]
          approvalCounter := if number < 255 then number + 1 else 1
          tabs := s.tabs.set i
            { t.named (.lane l) with lines := t.lines.set (f.line - 1) { x with pending := some number } } }))
     ∧ (s.token ≠ .lane l → 16 ≤ s.approvals.length →
      exec (.voidLine (.lane l) tag (.fields f)) s = .next
       (State.answered (.lane l) tag 0x04 .approvalsFull [Field.small f.line, Field.code 1] nobody
        { s with tabs := s.tabs.set i (t.named (.lane l)) }))
     ∧ (s.token = .lane l → s.inHand st tk →
      (∀ other, other ∈ tk.lines → other ≠ f.line →
        exec (.voidLine (.lane l) tag (.fields f)) s = .next
         (State.answered (.lane l) tag 0x04 .ok [Field.small f.line, Field.code 3] (toLanes .tabChanged t.followers)
          { s with
            stations := s.stations.set st ((s.station st).shortened n f.line)
            tabs := s.tabs.set i ((t.named (.lane l)).struck f.line x) }))
      ∧ ((∀ other ∈ tk.lines, other = f.line) →
        exec (.voidLine (.lane l) tag (.fields f)) s = .next
         (State.answered (.lane l) tag 0x04 .ok [Field.small f.line, Field.code 3]
          (both (toLanes .tabChanged t.followers) (toLanes .ticketKilled (s.station st).port.toList))
          { s with
            stations := s.stations.set st ((s.station st).killed n)
            tabs := s.tabs.set i { (t.named (.lane l)).struck f.line x with live := t.live - 1 } }))))

/-- COMP_LINE from the token holder is applied at once: the line comped and the base lowered by its amount before the comp (R42,
R44, R122). -/
def Obligations.CompLineApplied : Prop :=
  ∀ (l : Lane) (tag : Nat) (f : CompLineFields) (i : Slot) (x : Line) (s : State),
    tillReady l tag s = true → s.findTab f.tab = some i → ((s.tab i).pin = none ∨ l ∈ (s.tab i).unlocked) →
    (s.tab i).state = .opened → 1 ≤ f.line → (s.tab i).lines[f.line - 1]? = some x → f.reason ≤ 15 → x.pending = none →
    x.state ≠ .voided → x.comped = false → s.token = .lane l →
    (let t := s.tab i
     exec (.compLine (.lane l) tag (.fields f)) s = .next
      (State.answered (.lane l) tag 0x05 .ok [] (toLanes .tabChanged t.followers)
        { s with
          tabs := s.tabs.set i
            { t.named (.lane l) with
              base := t.base - x.price * x.quantity
              lines := t.lines.set (f.line - 1) { x with comped := true } } }))

/-- OVERRIDE_PRICE: from the token holder the price is replaced at once and the base moves with it; from another till the entry
carries the price brought into range, and nothing else of the line changes (R43, R44, R117, R118). The notice to a port that two
kinds reach: log entry 10; the reply's layout: log entry 14. -/
def Obligations.OverridePriceAppliedOrQueued : Prop :=
  ∀ (l : Lane) (tag : Nat) (f : OverridePriceFields) (asked : Nat) (i : Slot) (x : Line) (s : State),
    tillReady l tag s = true → s.findTab f.tab = some i → ((s.tab i).pin = none ∨ l ∈ (s.tab i).unlocked) →
    (s.tab i).state = .opened → 1 ≤ f.line → (s.tab i).lines[f.line - 1]? = some x → f.reason ≤ 15 → x.pending = none →
    x.state ≠ .voided → f.price = some asked →
    (let t := s.tab i
     let price := min asked 99999
     let base := if x.comped then t.base else t.base - x.price * x.quantity + price * x.quantity
     (x.comped = true ∨ base ≤ 50000000) →
     (s.token = .lane l →
      exec (.overridePrice (.lane l) tag (.fields f)) s = .next
        (State.answered (.lane l) tag 0x06 (if 99999 < asked then .clamped else .ok) [] (toLanes .tabChanged t.followers)
          { s with
            tabs := s.tabs.set i
              { t.named (.lane l) with
                base := base, lines := t.lines.set (f.line - 1) { x with price := price } } }))
     ∧ (∀ number : Nat, s.token ≠ .lane l → s.approvals.length < 16 → 1 ≤ s.approvalCounter → s.approvalCounter ≤ 255 →
      FirstFrom 255 s.numberAsked s.approvalCounter number →
      exec (.overridePrice (.lane l) tag (.fields f)) s = .next
        (State.answered (.lane l) tag 0x06 .queued
          [Field.small number, Field.amount price, Field.flag (decide (99999 < asked))]
          (both (toLanes .tabChanged t.followers) (toPort .approvalWaiting s.token))
          { s with
            approvals := s.approvals ++
              [{ number := number, ask := .price f.line price, requester := l, tab := t.number
                 reason := f.reason, queuedAt := s.clock }]
            approvalCounter := if number < 255 then number + 1 else 1
            tabs := s.tabs.set i
              { t.named (.lane l) with
                lines := t.lines.set (f.line - 1) { x with pending := some number } } })))

/-- FOLLOW joins the follower list of fewer than four at its end, UNFOLLOW leaves it, and SET_SERVICE from the office replaces
the service rate (R45, R47). -/
def Obligations.FollowersAndService : Prop :=
  ∀ (n : Nat) (i : Slot) (tag : Nat) (s : State), s.findTab n = some i →
    (∀ l : Lane, joinReady l tag s = true → l ∉ (s.tab i).followers → (s.tab i).followers.length < 4 →
      exec (.follow (.lane l) tag (.fields n)) s = .next
        (State.answered (.lane l) tag 0x07 .ok [] nobody
          { s with
            tabs := s.tabs.set i
              { (s.tab i).named (.lane l) with followers := (s.tab i).followers ++ [l] } }))
    ∧ (∀ l : Lane, joinReady l tag s = true →
      exec (.unfollow (.lane l) tag (.fields n)) s = .next
        (State.answered (.lane l) tag 0x08 .ok [] nobody
          { s with
            tabs := s.tabs.set i
              { (s.tab i).named (.lane l) with followers := (s.tab i).followers.filter fun x => x ≠ l } }))
    ∧ ∀ rate : Nat, officeReady tag s = true → (s.tab i).state = .opened → rate ≤ 2500 →
      exec (.setService .office tag (.fields ⟨n, rate⟩)) s = .next
        (State.answered .office tag 0x09 .ok [] (toLanes .tabChanged (s.tab i).followers)
          { s with tabs := s.tabs.set i { s.tab i with service := rate } })

/-! ### Protection -/

/-- UNLOCK of a tab with a PIN that is not locked out: the right PIN joins the unlock set and clears the count; a wrong one counts,
and the third locks the tab out with TAB_CHANGED (R52, R53). -/
def Obligations.UnlockCountsTries : Prop :=
  ∀ (l : Lane) (tag : Nat) (n pin tried : Nat) (i : Slot) (s : State),
    tillReady l tag s = true → s.findTab n = some i → (s.tab i).pin = some pin → tried ≤ 999999 →
    (s.tab i).wrongTries < 3 →
    (let t := (s.tab i).named (.lane l)
     let tries := t.wrongTries + 1
     exec (.unlock (.lane l) tag (.fields ⟨n, some tried⟩)) s = .next
      (if tried = pin then
        State.answered (.lane l) tag 0x0A .ok [Field.number 0, Field.flag true] nobody
          { s with
            tabs := s.tabs.set i
              { t with wrongTries := 0, unlocked := if l ∈ t.unlocked then t.unlocked else t.unlocked ++ [l] } }
      else
        State.answered (.lane l) tag 0x0A (if tries = 3 then .lockedOut else .wrongPin)
          [Field.number tries, Field.flag true]
          (if tries = 3 then toLanes .tabChanged t.followers else nobody)
          { s with tabs := s.tabs.set i { t with wrongTries := tries } }))

/-- LOCK, in each of its cases: NO_TAB, WRONG_STATE for the settle owner of a SETTLING tab, and otherwise the requester out of the
unlock set with nothing raised (R56). The settle claim of an owner that names its tab restarts (R161). -/
def Obligations.LockLeavesUnlockSet : Prop :=
  ∀ (l : Lane) (tag n : Nat) (s : State), tillReady l tag s = true →
    (s.findTab n = none → exec (.lock (.lane l) tag (.fields n)) s = .next (s.answered (.lane l) tag 0x0B .noTab [] nobody))
    ∧ ∀ i : Slot, s.findTab n = some i →
      (let t := (s.tab i).named (.lane l)
       exec (.lock (.lane l) tag (.fields n)) s = .next
        (if t.state = .settling ∧ t.owner = some l then
          State.answered (.lane l) tag 0x0B .wrongState [] nobody { s with tabs := s.tabs.set i t }
        else
          State.answered (.lane l) tag 0x0B .ok [] nobody
            { s with tabs := s.tabs.set i { t with unlocked := t.unlocked.filter fun x => x ≠ l } }))

/-- SET_PIN from an unlocked till of an OPEN tab that is not locked out: the PIN replaced, the setter alone unlocked, the count 0;
CLEAR_LOCKOUT from the token holder lifts a lockout and keeps PIN and unlock set (R57, R54, R55). -/
def Obligations.PinAndLockout : Prop :=
  ∀ (l : Lane) (tag n : Nat) (i : Slot) (s : State), tillReady l tag s = true → s.findTab n = some i →
    (let t := (s.tab i).named (.lane l)
     (∀ pin : Option Nat, (t.pin = none ∨ l ∈ t.unlocked) → t.state = .opened → t.wrongTries ≠ 3 →
        (∀ x, pin = some x → x ≤ 999999) →
        exec (.setPin (.lane l) tag (.fields ⟨n, pin⟩)) s = .next
          (State.answered (.lane l) tag 0x0C .ok [] (toLanes .tabChanged t.followers)
            { s with tabs := s.tabs.set i { t with pin := pin, unlocked := [l], wrongTries := 0 } }))
     ∧ ∀ reason : Nat, reason ≤ 15 → t.wrongTries = 3 → s.token = .lane l →
        (∀ e ∈ s.approvals, e.tab ≠ t.number ∨ e.ask ≠ .pinClear) →
        exec (.clearLockout (.lane l) tag (.fields ⟨n, reason⟩)) s = .next
          (State.answered (.lane l) tag 0x0D .ok [] (toLanes .tabChanged t.followers)
            { s with tabs := s.tabs.set i { t with wrongTries := 0 } }))

/-! ### Firing -/

/-- FIRE of the one ENTERED line of a tab, placed at its home station, or rerouted to the alternate of a CLOSED one: one ticket,
with the first ticket number not in use from the counter on, sequenced, at the end of the queue with the station's threshold as its
countdown; the line FIRED, its quantity consumed, the rail brought up to date (R66, R67, R69 to R77, R14). The notice to a port
that two kinds reach: log entry 10; the reply's layout: log entry 14. -/
def Obligations.FireOneLine : Prop :=
  ∀ (l : Lane) (tag n : Nat) (i : Slot) (k number : Nat) (x : Line) (st : StationNo) (s : State),
    tillReady l tag s = true → s.findTab n = some i → ((s.tab i).pin = none ∨ l ∈ (s.tab i).unlocked) →
    (s.tab i).state = .opened → (s.tab i).lines[k]? = some x → x.state = .entered →
    (∀ j y, (s.tab i).lines[j]? = some y → y.state = .entered → j = k) →
    (((s.station x.station).state ≠ .closed ∧ st = x.station)
      ∨ ((s.station x.station).state = .closed ∧ (s.station x.station).alternate = some st
        ∧ (s.station st).state ≠ .closed)) →
    s.occupancy < 256 → (s.station st).queue.length < 64 →
    1 ≤ s.ticketCounter → s.ticketCounter ≤ 65535 → FirstFrom 65535 s.numberOnTicket s.ticketCounter number →
    (let t := s.tab i
     let tk : Ticket :=
        { number := number, tab := t.number, home := x.station
          rerouted := decide ((s.station x.station).state = .closed), group := x.group, seq := s.fireSeq
          firedAt := s.clock
          late := if (s.station st).threshold = 0 then none else some (s.station st).threshold
          lateFlag := false, lines := [k + 1] }
     let it := s.item x.item
     let s' : State :=
        { s with
          ticketCounter := if number < 65535 then number + 1 else 1
          fireSeq := (s.fireSeq + 1) % 4294967296
          items := s.items.set x.item
            { it with
              reserved := it.reserved - x.quantity
              count := if it.mode = .limited then it.count - x.quantity else it.count }
          stations := s.stations.set st { s.station st with queue := (s.station st).queue ++ [tk] }
          tabs := s.tabs.set i
            { t.named (.lane l) with
              live := t.live + 1
              lines := t.lines.set k { x with state := .fired, ticket := some number } } }
     exec (.fire (.lane l) tag (.fields ⟨n, none⟩)) s = .next
      (State.answered (.lane l) tag 0x10 .ok
        [Field.number 1, Field.listCount 1, Field.ident number, Field.small st.val]
        (both (toLanes .tabChanged t.followers) (railRaised st s'))
        (s'.withRail st)))

/-- FIRE is whole or not at all: after it either no line of the tab has changed, or exactly the ENTERED lines of the groups asked
for are FIRED, each with a ticket number, and the other lines are as they were (R68, R69, R74). Of an OPEN tab, with no line to
fire it makes no ticket (R69); with a line whose home station and alternate are CLOSED it is refused NO_STATION with the home
station of the first such line, with too little room in the pool TICKETS_FULL, with too little in a queue QUEUE_FULL (R72, R73);
otherwise the lines of each home station and group are cut into tickets of eight, the last of the rest, placed at the home station
or rerouted to its alternate, in firing order: sequenced from the fire sequence on, numbered from the counter on where those
numbers are free, each at the end of its station's queue, and the reply lists them (R66, R67, R70, R71, R72, R74 to R77, R14). The
reply's layout: log entry 14. -/
def Obligations.FireIsWholeOrNothing : Prop :=
  (∀ (l : Lane) (tag : Nat) (f : FireFields) (i : Slot) (s t : State),
    s.findTab f.tab = some i → exec (.fire (.lane l) tag (.fields f)) s = .next t →
    (t.tab i).lines = (s.tab i).lines
      ∨ ((t.tab i).lines.length = (s.tab i).lines.length
        ∧ ∀ (k : Nat) (x : Line), (s.tab i).lines[k]? = some x →
          ∃ y, (t.tab i).lines[k]? = some y
            ∧ if x.state = .entered ∧ (∀ gs, f.groups = some gs → x.group.val ∈ gs) then
                y = { x with state := .fired, ticket := y.ticket } ∧ y.ticket ≠ none
              else y = x))
  ∧ ∀ (l : Lane) (tag : Nat) (f : FireFields) (i : Slot) (s : State),
    tillReady l tag s = true → s.findTab f.tab = some i → ((s.tab i).pin = none ∨ l ∈ (s.tab i).unlocked) →
    (s.tab i).state = .opened → (∀ gs, f.groups = some gs → gs.length ≤ 8 ∧ ∀ g ∈ gs, g ≤ 7) →
    (let c : Instr := .fire (.lane l) tag (.fields f)
     let lines := (s.tab i).lines
     let asked := lines.zipIdx.filter fun q => q.1.state = .entered && (f.groups.elim true fun gs => gs.contains q.1.group.val)
     let part (h : StationNo) (g : GroupNo) : List Nat :=
        (asked.filter fun q => q.1.station = h && q.1.group = g).map fun q => q.2 + 1
     let cuts (h : StationNo) (g : GroupNo) : Nat := ((part h g).length + 7) / 8
     let takes (h : StationNo) : Bool := (s.station h).state ≠ .closed
     let target (h : StationNo) : Option StationNo := if takes h then some h else (s.station h).alternate.filter takes
     let overall (w : StationNo → GroupNo → Nat) : Nat :=
        ((List.finRange 8).map fun h => ((List.finRange 8).map (w h)).sum).sum
     let need := overall cuts
     let needAt (b : StationNo) : Nat := overall fun h g => if target h = some b then cuts h g else 0
     let free := 256 - s.occupancy
     let tooLong (b : StationNo) : Bool := 0 < needAt b && 64 < (s.station b).queue.length + needAt b
     let s' : State := { s with tabs := s.tabs.set i ((s.tab i).named (.lane l)) }
     (asked = [] → exec c s = .next (s'.answered (.lane l) tag 0x10 .ok [Field.number 0, Field.listCount 0] nobody))
     ∧ (∀ q, asked.find? (fun q => target q.1.station = none) = some q →
        exec c s = .next (s'.answered (.lane l) tag 0x10 .noStation [Field.small q.1.station.val] nobody))
     ∧ (asked ≠ [] → (∀ q ∈ asked, target q.1.station ≠ none) →
        (free < need →
          exec c s = .next (s'.answered (.lane l) tag 0x10 .ticketsFull [Field.number need, Field.number free] nobody))
        ∧ (∀ b, need ≤ free → (List.finRange 8).find? tooLong = some b →
          exec c s = .next
            (s'.answered (.lane l) tag 0x10 .queueFull [Field.small b.val, Field.number (s.station b).queue.length] nobody))
        ∧ (need ≤ free → (∀ b, tooLong b = false) → s.fireSeq < 4294967296 →
          ∃ t, exec c s = .next t
            ∧ (∃ made : List (StationNo × Ticket), made.length = need
              ∧ (∀ q ∈ made.zipIdx, target q.1.2.home = some q.1.1
                  ∧ q.1.2 =
                    { number := q.1.2.number, tab := (s.tab i).number, home := q.1.2.home
                      rerouted := decide (q.1.1 ≠ q.1.2.home), group := q.1.2.group
                      seq := (s.fireSeq + q.2) % 4294967296, firedAt := s.clock
                      late := if (s.station q.1.1).threshold = 0 then none else some (s.station q.1.1).threshold
                      lateFlag := false, lines := q.1.2.lines })
              ∧ (∀ h g, let cut := (made.filter fun q => q.2.home = h && q.2.group = g).map fun q => q.2.lines
                  cut.flatten = part h g ∧ (∀ ns ∈ cut, 1 ≤ ns.length ∧ ns.length ≤ 8)
                    ∧ ∀ ns ∈ cut.dropLast, ns.length = 8)
              ∧ made.Pairwise (fun q r => (part q.2.home q.2.group).headD 0 ≤ (part r.2.home r.2.group).headD 0)
              ∧ ((∀ k, k < need → ¬s.numberOnTicket ((s.ticketCounter - 1 + k) % 65535 + 1)) →
                  1 ≤ s.ticketCounter → s.ticketCounter ≤ 65535 →
                  ∀ q ∈ made.zipIdx, q.1.2.number = (s.ticketCounter - 1 + q.2) % 65535 + 1)
              ∧ (∀ b, t.station b =
                  { s.station b with
                    queue := (s.station b).queue ++ (made.filter fun q => q.1 = b).map Prod.snd
                    rail := if made.any (fun q => q.1 = b) then t.railOf b else (s.station b).rail })
              ∧ Frame.reply tag 0x90 .ok
                  ([Field.number need, Field.listCount need]
                    ++ made.flatMap fun q => [Field.ident q.2.number, Field.small q.1.val]) ∈ (t.port l).transmit
              ∧ ∀ q ∈ lines.zipIdx, ∃ y, (t.tab i).lines[q.2]? = some y
                  ∧ if q ∈ asked then ∃ r ∈ made, q.2 + 1 ∈ r.2.lines ∧
                      y = { q.1 with state := .fired, ticket := some r.2.number }
                    else y = q.1)
            ∧ t.tabs = s.tabs.set i
                { (s.tab i).named (.lane l) with lines := (t.tab i).lines, live := (s.tab i).live + need }
            ∧ (∀ m, let q := ((asked.filter fun q => q.1.item = m).map fun q => q.1.quantity).sum
                t.item m =
                  { s.item m with
                    reserved := (s.item m).reserved - q
                    count := if (s.item m).mode = .limited then (s.item m).count - q else (s.item m).count })
            ∧ t.fireSeq = (s.fireSeq + need) % 4294967296
            ∧ (∀ m ∈ (s.tab i).followers, (t.port m).events &&& eventBit .tabChanged ≠ 0)
            ∧ t = { s with
                items := t.items, tabs := t.tabs, stations := t.stations, ports := t.ports
                ticketCounter := t.ticketCounter, fireSeq := t.fireSeq })))

/-! ### Stations -/

/-- RAIL and STATION_VIEW change nothing: RAIL carries the station's state, its hold-low flag and its first two tickets in
dispatch order, STATION_VIEW its header, two tickets from the start position and the next position (R93, R103). Two tickets
with one fire sequence: log entry 29; the replies' layout: log entry 14. -/
def Obligations.StationReads : Prop :=
  ∀ (l : Lane) (st : StationNo) (tag : Nat) (s : State), stationReady l st tag s = true →
    (exec (.rail (.lane l) tag (.fields ())) s = .next
      (s.answered (.lane l) tag 0x18 .ok
        ([Field.code (stationStateCode (s.station st).state), Field.code (if (s.station st).holdLow then 1 else 0)]
          ++ optField (ticketContent s .queued) (s.dispatch st)[0]?
          ++ optField (ticketContent s .queued) (s.dispatch st)[1]?)
        nobody))
    ∧ ∀ start : Nat, start ≤ 74 →
      (let rest := (stationPositions s st).drop start
       exec (.stationView (.lane l) tag (.fields start)) s = .next
        (s.answered (.lane l) tag 0x20 .ok
          (stationHeader s st ++ [Field.listCount (min 2 rest.length)]
            ++ (rest.take 2).flatMap (fun q => ticketContent s q.2.1 q.2.2 ++ [Field.code q.1])
            ++ if 2 < rest.length then [Field.presence true, Field.small (start + 2)] else [Field.presence false])
          nobody))

/-- TAKE and RESUME. TAKE: NOTHING with no eligible ticket, STACK_FULL with three tickets in hand, and otherwise the first of the
dispatch order into work, the ticket in hand onto the stack, the rail brought up to date. RESUME: the top of the stack back into
work, WRONG_STATE with a ticket in work or an empty stack (R94, R95, R99). Two tickets with one fire sequence:
log entry 29; the replies' layout: log entry 14. -/
def Obligations.TakeAndResume : Prop :=
  ∀ (l : Lane) (st : StationNo) (tag : Nat) (s : State), stationReady l st tag s = true →
    (let x := s.station st
     (s.dispatch st = [] →
        exec (.take (.lane l) tag (.fields ())) s = .next (s.answered (.lane l) tag 0x19 .nothing [] nobody))
     ∧ (∀ t rest, s.dispatch st = t :: rest → x.inWork ≠ none → 2 ≤ x.stack.length →
        exec (.take (.lane l) tag (.fields ())) s = .next (s.answered (.lane l) tag 0x19 .stackFull [] nobody))
     ∧ (∀ t rest, s.dispatch st = t :: rest → (x.inWork = none ∨ x.stack.length < 2) →
        (let s' : State :=
            { s with
              stations := s.stations.set st
                { x with
                  queue := x.queue.filter fun y => y.number ≠ t.number
                  inWork := some t
                  stack := x.inWork.toList ++ x.stack } }
         exec (.take (.lane l) tag (.fields ())) s = .next
          (State.answered (.lane l) tag 0x19 .ok
            (ticketContent s .inWork t ++ match x.inWork with
              | none => [Field.presence false]
              | some y => [Field.presence true, Field.ident y.number])
            (railRaised st s') (s'.withRail st))))
     ∧ (∀ t rest, x.inWork = none → x.stack = t :: rest →
        exec (.resume (.lane l) tag (.fields ())) s = .next
          (State.answered (.lane l) tag 0x1B .ok (ticketContent s .inWork t) nobody
            { s with stations := s.stations.set st { x with inWork := some t, stack := rest } }))
     ∧ ((x.inWork ≠ none ∨ x.stack = []) →
        exec (.resume (.lane l) tag (.fields ())) s = .next (s.answered (.lane l) tag 0x1B .wrongState [] nobody)))

/-- BUMP of a ticket whose tab stays: the ticket DONE at the front of a recall list of at most eight, its FIRED lines SERVED, one
live ticket less, TAB_CHANGED to the followers; with nothing in work WRONG_STATE (R97, R98). -/
def Obligations.BumpServesTicket : Prop :=
  ∀ (l : Lane) (st : StationNo) (tag : Nat) (s : State), stationReady l st tag s = true →
    (let x := s.station st
     (x.inWork = none →
        exec (.bump (.lane l) tag (.fields ())) s = .next (s.answered (.lane l) tag 0x1A .wrongState [] nobody))
     ∧ ∀ (t : Ticket) (i : Slot), x.inWork = some t → s.findTab t.tab = some i →
        ((s.tab i).state ≠ .exported ∨ 2 ≤ (s.tab i).live) →
        exec (.bump (.lane l) tag (.fields ())) s = .next
          (State.answered (.lane l) tag 0x1A .ok [Field.ident t.number] (toLanes .tabChanged (s.tab i).followers)
            { s with
              stations := s.stations.set st
                { x with inWork := none, recalls := ({ t with late := none } :: x.recalls).take 8 }
              tabs := s.tabs.set i
                { s.tab i with
                  live := (s.tab i).live - 1
                  lines := (s.tab i).lines.zipIdx.map fun q =>
                    if q.2 + 1 ∈ t.lines ∧ q.1.state = .fired then { q.1 with state := .served } else q.1 } }))

/-- A BUMP that brings an EXPORTED tab's live count to 0 frees it: no slot bears its number, its DONE tickets stand in no recall
list, and no approval entry names it (R48, R23, R128). That a FREE slot holds the number 0 is the model's choice: log entry
24. -/
def Obligations.BumpFreesExportedTab : Prop :=
  ∀ (l : Lane) (st : StationNo) (tag : Nat) (t : Ticket) (i : Slot) (s : State),
    stationReady l st tag s = true → (s.station st).inWork = some t → s.findTab t.tab = some i →
    (s.tab i).state = .exported → (s.tab i).live = 1 →
    ∃ s', exec (.bump (.lane l) tag (.fields ())) s = .next s' ∧ s'.tab i = Tab.blank
      ∧ (∀ j, j ≠ i → s'.tab j = s.tab j)
      ∧ (∀ k y, y ∈ (s'.station k).recalls → y.tab ≠ t.tab)
      ∧ (∀ e ∈ s'.approvals, e.tab ≠ t.tab)
      ∧ ∀ m ∈ (s.tab i).followers, (s'.port m).events &&& eventBit .tabChanged ≠ 0

/-- RECALL of a ticket from the station's recall list: back into work, the ticket in hand onto the stack, its SERVED lines FIRED
again, one live ticket more (R100). -/
def Obligations.RecallReturnsTicket : Prop :=
  ∀ (l : Lane) (st : StationNo) (tag n : Nat) (t : Ticket) (i : Slot) (s : State),
    stationReady l st tag s = true → (s.station st).state ≠ .closed →
    (s.station st).recalls.find? (fun y => y.number = n) = some t → s.occupancy < 256 →
    ((s.station st).inWork = none ∨ (s.station st).stack.length < 2) → s.findTab t.tab = some i →
    (let x := s.station st
     exec (.recallTicket (.lane l) tag (.fields n)) s = .next
      (State.answered (.lane l) tag 0x1C .ok
        (ticketContent s .inWork t ++ match x.inWork with
          | none => [Field.presence false]
          | some y => [Field.presence true, Field.ident y.number])
        (toLanes .tabChanged (s.tab i).followers)
        { s with
          stations := s.stations.set st
            { x with
              recalls := x.recalls.filter fun y => y.number ≠ n
              inWork := some t
              stack := x.inWork.toList ++ x.stack }
          tabs := s.tabs.set i
            { s.tab i with
              live := (s.tab i).live + 1
              lines := (s.tab i).lines.zipIdx.map fun q =>
                if q.2 + 1 ∈ t.lines ∧ q.1.state = .served then { q.1 with state := .fired } else q.1 } }))

/-- HOLD_LOW sets the flag; PAUSE and OPEN move a station that is not CLOSED, from its bound port or from the office, and are
refused WRONG_STATE at a CLOSED one; each brings the rail up to date (R101, R102). -/
def Obligations.HoldLowPauseOpen : Prop :=
  ∀ (l : Lane) (st : StationNo) (tag : Nat) (s : State),
    (let x := s.station st
     let moved (state : StationState) : State := { s with stations := s.stations.set st { x with state := state } }
     (stationReady l st tag s = true →
        (∀ on : Bool,
          (let s' : State := { s with stations := s.stations.set st { x with holdLow := on } }
           exec (.holdLow (.lane l) tag (.fields (if on then 1 else 0))) s = .next
            (State.answered (.lane l) tag 0x1D .ok [] (railRaised st s') (s'.withRail st))))
        ∧ (x.state = .opened → exec (.pause (.lane l) tag (.fields none)) s = .next
            (State.answered (.lane l) tag 0x1E .ok [Field.code 1] (railRaised st (moved .paused))
              ((moved .paused).withRail st)))
        ∧ (x.state = .paused → exec (.openStation (.lane l) tag (.fields none)) s = .next
            (State.answered (.lane l) tag 0x1F .ok [Field.code 0] (railRaised st (moved .opened))
              ((moved .opened).withRail st)))
        ∧ (x.state = .closed →
            exec (.pause (.lane l) tag (.fields none)) s = .next (s.answered (.lane l) tag 0x1E .wrongState [] nobody)
            ∧ exec (.openStation (.lane l) tag (.fields none)) s = .next
              (s.answered (.lane l) tag 0x1F .wrongState [] nobody)))
     ∧ (officeReady tag s = true →
        (x.state = .opened → exec (.pause .office tag (.fields (some st.val))) s = .next
            (State.answered .office tag 0x1E .ok [Field.code 1] (railRaised st (moved .paused))
              ((moved .paused).withRail st)))
        ∧ (x.state = .paused → exec (.openStation .office tag (.fields (some st.val))) s = .next
            (State.answered .office tag 0x1F .ok [Field.code 0] (railRaised st (moved .opened))
              ((moved .opened).withRail st)))))

/-- SET_STATION that closes nothing replaces state, alternate and threshold, the threshold brought into range; a close with an
empty queue does the same, and a close with tickets moves the whole queue to an alternate that takes tickets and has room,
rerouted but at their home station. A close is refused STATION_BUSY with a ticket in hand, TICKETS_STRANDED with tickets and no
usable alternate, QUEUE_FULL with an alternate that has no room (R104, R105). -/
def Obligations.SetStationConfigures : Prop :=
  ∀ (tag : Nat) (st : StationNo) (state : StationState) (a : Option StationNo) (th : Nat) (s : State),
    officeReady tag s = true → a ≠ some st →
    (let x := s.station st
     let kept := if th = 0 then 0 else max 60 (min th 3600)
     let status : Status := if kept = th then .ok else .clamped
     let figures (moved : Nat) : List Field :=
        [Field.code (stationStateCode state)] ++ optField (fun b : StationNo => [Field.small b.val]) a
          ++ [Field.seconds kept, Field.number moved]
     let c : Instr := .setStation .office tag (.fields ⟨st.val, stationStateCode state, a.map Fin.val, th⟩)
     let set : State := { s with stations := s.stations.set st { x with state := state, alternate := a, threshold := kept } }
     (¬(state = .closed ∧ x.state ≠ .closed) ∨ (x.queue = [] ∧ x.inWork = none ∧ x.stack = []) →
        exec c s = .next (State.answered .office tag 0x21 status (figures 0) (railRaised st set) (set.withRail st)))
     ∧ (state = .closed → x.state ≠ .closed → (x.inWork ≠ none ∨ x.stack ≠ []) →
        exec c s = .next (s.answered .office tag 0x21 .stationBusy [] nobody))
     ∧ (state = .closed → x.state ≠ .closed → x.inWork = none → x.stack = [] → x.queue ≠ [] →
        (∀ b, a = some b → (s.station b).state = .closed) →
        exec c s = .next (s.answered .office tag 0x21 .ticketsStranded [] nobody))
     ∧ (∀ b : StationNo, a = some b → state = .closed → x.state ≠ .closed → x.inWork = none → x.stack = [] →
        x.queue ≠ [] → (s.station b).state ≠ .closed → 64 < (s.station b).queue.length + x.queue.length →
        exec c s = .next
          (s.answered .office tag 0x21 .queueFull [Field.small b.val, Field.number (s.station b).queue.length] nobody))
     ∧ ∀ b : StationNo, a = some b → state = .closed → x.state ≠ .closed → x.inWork = none → x.stack = [] →
        x.queue ≠ [] → (s.station b).state ≠ .closed → (s.station b).queue.length + x.queue.length ≤ 64 →
        (let y := s.station b
         let s' : State :=
            { s with
              stations :=
                (s.stations.set st { x with state := .closed, alternate := a, threshold := kept, queue := [] }).set b
                  { y with queue := y.queue ++ x.queue.map fun t => { t with rerouted := decide (t.home ≠ b) } } }
         exec c s = .next
          (State.answered .office tag 0x21 status (figures x.queue.length) (both (railRaised st s') (railRaised b s'))
            ((s'.withRail st).withRail b))))

/-! ### The supervisor -/

/-- PASS_SUPERVISOR from the holder to another supervisor-capable till, and RECLAIM by the office: the token moves, TOKEN_GIVEN and
TOKEN_TAKEN go where each request raises them, and APPROVAL_WAITING to the new holder when entries wait. APPROVAL_LIST from the
holder carries at most eight entries in arrival order and changes nothing; RESULTS returns the lane's results and empties its
list (R110, R111, R112, R119, R130). The notice to a port that two kinds reach: log entry 10; the replies' layout: log entry 14. -/
def Obligations.TokenMovesAndQueueReads : Prop :=
  ∀ (tag : Nat) (s : State),
    (∀ (p : Port) (l : Lane), deskReady p tag s = true → s.token = p → p ≠ .lane l → (s.port l).role = .till →
      (s.port l).supervisor = true →
      exec (.passSupervisor p tag (.fields l.val)) s = .next
        (State.answered p tag 0x28 .ok [Field.small l.val]
          (both (both (toPort .tokenGiven (.lane l)) (toPort .tokenTaken p))
            (if s.approvals = [] then nobody else toPort .approvalWaiting (.lane l)))
          { s with token := .lane l }))
    ∧ (∀ l : Lane, officeReady tag s = true → s.token = .lane l →
      exec (.reclaim .office tag (.fields ())) s = .next
        (State.answered .office tag 0x29 .ok [Field.small 255]
          (both (toPort .tokenTaken (.lane l)) (if s.approvals = [] then nobody else toPort .approvalWaiting .office))
          { s with token := .office }))
    ∧ (officeReady tag s = true → s.token = .office →
      exec (.reclaim .office tag (.fields ())) s = .next (s.answered .office tag 0x29 .ok [Field.small 255] nobody))
    ∧ (∀ (p : Port) (start : Nat), deskReady p tag s = true → s.token = p → start ≤ 15 →
      (let rest := s.approvals.drop start
       exec (.approvalList p tag (.fields start)) s = .next
        (s.answered p tag 0x2A .ok
          ([Field.number s.approvals.length, Field.listCount (min 8 rest.length)]
            ++ (rest.take 8).flatMap (entryFields p s)
            ++ if 8 < rest.length then [Field.presence true, Field.small (start + 8)] else [Field.presence false])
          nobody)))
    ∧ ∀ l : Lane, joinReady l tag s = true →
      exec (.results (.lane l) tag (.fields ())) s = .next
        (State.answered (.lane l) tag 0x2E .ok
          (Field.listCount (s.resultsOf l).length :: (s.resultsOf l).flatMap resultFields) nobody
          { s with results := s.results.set l [] })

/-- APPROVE of an entry of each kind. With its precondition the effect is applied and the outcome is APPROVED: a COMP or PRICE of a
line (R122, R123), a VOID_FIRED of a line on a live ticket in hand, which is shortened or killed with TICKET_KILLED (R121, R81,
R82, R108), a PIN_CLEAR (R124), an UNDO_TENDER of a share's last tender (R125). Without it the outcome is STALE and nothing is
applied. Each way the line is no longer pending, the entry leaves the queue and the outcome joins the requester's list of at most
four with APPROVAL_DONE (R120, R129). The notice to a port that two kinds reach: log entry 10; the reply's layout: log entry 14. -/
def Obligations.ApproveAppliesComp : Prop :=
  (∀ (p : Port) (tag : Nat) (e : Entry) (i : Slot) (s : State),
    deskReady p tag s = true → s.token = p → s.approvals.find? (fun y => y.number = e.number) = some e →
    s.findTab e.tab = some i →
    (let t := s.tab i
     let decided (v : Verdict) (r : Raised) (u : State) : Host.Outcome State Fault Refusal := .next
        (State.answered p tag 0x2B .ok
          [Field.small e.number, Field.code (askCode e.ask), Field.ident e.tab, Field.code (verdictCode v)]
          (both r (toPort .approvalDone (.lane e.requester)))
          { u with
            approvals := s.approvals.filter fun y => y.number ≠ e.number
            results := s.results.set e.requester (joined (s.resultsOf e.requester)
              [{ number := e.number, ask := e.ask, tab := e.tab, verdict := v, decidedAt := s.clock }]) })
     let toldTab := toLanes .tabChanged t.followers
     let approved := exec (.approve p tag (.fields e.number)) s
     let rebased (x : Line) (price : Nat) : Nat :=
        if x.comped then t.base else t.base - x.price * x.quantity + price * x.quantity
     (∀ (n price : Nat) (x : Line), e.ask = .price n price → 1 ≤ n → t.lines[n - 1]? = some x → x.state ≠ .voided →
        t.state = .opened → rebased x price ≤ 50000000 →
        approved = decided .approved toldTab
          { s with
            tabs := s.tabs.set i
              { t with base := rebased x price, lines := t.lines.set (n - 1) { x with price := price, pending := none } } })
     ∧ (∀ (n m : Nat) (x : Line) (st : StationNo) (place : TicketState) (tk : Ticket), e.ask = .voidFired n → 1 ≤ n →
        t.lines[n - 1]? = some x → x.state = .fired → x.ticket = some m → s.findLive m = some (st, place, tk) →
        s.inHand st tk →
        (∀ other, other ∈ tk.lines → other ≠ n →
          approved = decided .approved toldTab
            { s with stations := s.stations.set st ((s.station st).shortened m n), tabs := s.tabs.set i (t.struck n x) })
        ∧ ((∀ other ∈ tk.lines, other = n) →
          approved = decided .approved (both toldTab (toLanes .ticketKilled (s.station st).port.toList))
            { s with
              stations := s.stations.set st ((s.station st).killed m)
              tabs := s.tabs.set i { t.struck n x with live := t.live - 1 } }))
     ∧ (e.ask = .pinClear →
        approved = decided .approved toldTab { s with tabs := s.tabs.set i { t with wrongTries := 0 } })
     ∧ (∀ (k : Nat) (j : ShareNo) (sh : Share) (ds : List Tender) (d : Tender), e.ask = .undoTender k → t.state = .settling →
        s.shareAt t k = some (j, sh) → sh.tenders = ds ++ [d] →
        approved = decided .approved toldTab
          { s with shares := s.shares.set j (.held { sh with paid := sh.paid - d.applied, tenders := ds, state := .due }) })
     ∧ (∀ (n : Nat) (x : Line), 1 ≤ n → t.lines[n - 1]? = some x →
        (let stale := decided .stale toldTab
          { s with tabs := s.tabs.set i { t with lines := t.lines.set (n - 1) { x with pending := none } } }
         (e.ask = .comp n → (x.state = .voided ∨ t.state ≠ .opened) → approved = stale)
         ∧ (∀ price, e.ask = .price n price →
            (x.state = .voided ∨ t.state ≠ .opened ∨ 50000000 < rebased x price) → approved = stale)
         ∧ (e.ask = .voidFired n → (x.state ≠ .fired ∨ x.ticket.bind s.findLive = none) → approved = stale)))
     ∧ ∀ k : Nat, e.ask = .undoTender k →
        (t.state ≠ .settling ∨ (s.shareAt t k).elim [] (fun q => q.2.tenders) = []) →
        approved = decided .stale nobody s))
  ∧ ∀ (p : Port) (tag : Nat) (e : Entry) (n : Nat) (i : Slot) (x : Line) (s : State),
    deskReady p tag s = true → s.token = p → s.approvals.find? (fun y => y.number = e.number) = some e →
    e.ask = .comp n → s.findTab e.tab = some i → (s.tab i).state = .opened → 1 ≤ n →
    (s.tab i).lines[n - 1]? = some x → x.state ≠ .voided → x.comped = false →
    (let t := s.tab i
     let mine := s.resultsOf e.requester ++
        [{ number := e.number, ask := e.ask, tab := e.tab, verdict := .approved, decidedAt := s.clock }]
     exec (.approve p tag (.fields e.number)) s = .next
      (State.answered p tag 0x2B .ok
        [Field.small e.number, Field.code 1, Field.ident e.tab, Field.code 0]
        (both (toLanes .tabChanged t.followers) (toPort .approvalDone (.lane e.requester)))
        { s with
          tabs := s.tabs.set i
            { t with
              base := t.base - x.price * x.quantity
              lines := t.lines.set (n - 1) { x with comped := true, pending := none } }
          approvals := s.approvals.filter fun y => y.number ≠ e.number
          results := s.results.set e.requester (mine.drop (mine.length - 4)) }))

/-- DENY by the holder and WITHDRAW by the requester of an entry: the entry out of the queue, the outcome recorded for the
requester with APPROVAL_DONE, and nothing applied; the line of an entry about a line no longer pending, with TAB_CHANGED, and with
a PIN_CLEAR or UNDO_TENDER entry nothing of the tab changed (R126, R127, R129). The notice to a port that two kinds reach: log
entry 10; the reply's layout: log entry 14. -/
def Obligations.DenyAndWithdraw : Prop :=
  (∀ (tag : Nat) (e : Entry) (s : State),
    s.approvals.find? (fun y => y.number = e.number) = some e → askLine e.ask = none →
    (let ended (p : Port) (code : Nat) (v : Verdict) : State :=
        State.answered p tag code .ok
          [Field.small e.number, Field.code (askCode e.ask), Field.ident e.tab, Field.code (verdictCode v)]
          (toPort .approvalDone (.lane e.requester))
          { s with
            approvals := s.approvals.filter fun y => y.number ≠ e.number
            results := s.results.set e.requester (joined (s.resultsOf e.requester)
              [{ number := e.number, ask := e.ask, tab := e.tab, verdict := v, decidedAt := s.clock }]) }
     (∀ p : Port, deskReady p tag s = true → s.token = p →
        exec (.deny p tag (.fields e.number)) s = .next (ended p 0x2C .denied))
     ∧ (joinReady e.requester tag s = true →
        exec (.withdraw (.lane e.requester) tag (.fields e.number)) s = .next
          (ended (.lane e.requester) 0x2D .withdrawn))))
  ∧ ∀ (tag : Nat) (e : Entry) (n : Nat) (i : Slot) (x : Line) (s : State),
    s.approvals.find? (fun y => y.number = e.number) = some e → askLine e.ask = some n → s.findTab e.tab = some i →
    1 ≤ n → (s.tab i).lines[n - 1]? = some x →
    (let t := s.tab i
     let ended (p : Port) (code : Nat) (v : Verdict) : State :=
        let mine := s.resultsOf e.requester ++
          [{ number := e.number, ask := e.ask, tab := e.tab, verdict := v, decidedAt := s.clock }]
        State.answered p tag code .ok
          [Field.small e.number, Field.code (askCode e.ask), Field.ident e.tab, Field.code (verdictCode v)]
          (both (toLanes .tabChanged t.followers) (toPort .approvalDone (.lane e.requester)))
          { s with
            tabs := s.tabs.set i { t with lines := t.lines.set (n - 1) { x with pending := none } }
            approvals := s.approvals.filter fun y => y.number ≠ e.number
            results := s.results.set e.requester (mine.drop (mine.length - 4)) }
     (∀ p : Port, deskReady p tag s = true → s.token = p →
        exec (.deny p tag (.fields e.number)) s = .next (ended p 0x2C .denied))
     ∧ (joinReady e.requester tag s = true →
        exec (.withdraw (.lane e.requester) tag (.fields e.number)) s = .next
          (ended (.lane e.requester) 0x2D .withdrawn))
     ∧ ∀ l : Lane, l ≠ e.requester → joinReady l tag s = true →
        exec (.withdraw (.lane l) tag (.fields e.number)) s = .next (s.answered (.lane l) tag 0x2D .notOwner [] nobody))

/-! ### Settlement -/

/-- SPLIT accepted: the tab SETTLING and owned with no countdown, n free records reserved for it, TAB_CHANGED raised, the reply
withheld as the port's outstanding request; behind a computation the request joins the end of the waiting list, and with the engine
idle and none waiting it begins at once with the inputs as they stand (R133, R147, R148, R149). The definition is EVEN, or BY_SEAT
with a seat map that passes its checks, n being the number of distinct leads of the seats on the tab's lines, or 1 with none (R134,
R135, R136). Which free records are taken is the model's choice: log entry 9. -/
def Obligations.SplitIsAccepted : Prop :=
  (∀ (l : Lane) (tag : Nat) (f : SplitFields) (d : ShareDef) (n : Nat) (i : Slot) (s : State),
    tillReady l tag s = true → s.findTab f.tab = some i → ((s.tab i).pin = none ∨ l ∈ (s.tab i).unlocked) →
    (s.tab i).state = .opened → (∀ x ∈ (s.tab i).lines, x.state ≠ .entered) →
    (∀ e ∈ s.approvals, e.tab = f.tab → askLine e.ask = none) →
    (let map := f.map.getD []
     let lead (seat : Nat) : Nat := ((map.find? fun q => q.1 = seat).map Prod.snd).getD seat
     let leads := (List.range' 1 24).filter fun t =>
        (s.tab i).lines.any fun x => x.state ≠ .voided && 1 ≤ x.seat && x.seat ≤ 24 && lead x.seat = t
     (f.mode = 0 ∧ f.count = some n ∧ 1 ≤ n ∧ n ≤ 24 ∧ map = [] ∧ d = .even n)
        ∨ (f.mode = 1 ∧ f.count = none ∧ map.length ≤ 24
          ∧ (∀ q ∈ map, 1 ≤ q.1 ∧ q.1 ≤ 24 ∧ 1 ≤ q.2 ∧ q.2 ≤ 24 ∧ q.1 ≠ q.2 ∧ q.2 ∉ map.map Prod.fst)
          ∧ (map.map Prod.fst).Nodup ∧ d = .bySeat map ∧ n = max 1 leads.length)) →
    n ≤ ((List.finRange 384).filter fun j => s.shares.get j = .free).length →
    ∃ refs : List ShareNo, refs.length = n ∧ refs.Nodup ∧ (∀ j ∈ refs, s.shares.get j = .free)
      ∧ (let job : SplitJob := { tab := f.tab, shape := d, count := n }
         let accepted (computing : Option Computation) (waiting : List SplitJob) : State :=
          State.told (toLanes .tabChanged (s.tab i).followers)
            { s with
              tabs := s.tabs.set i
                { s.tab i with
                  state := .settling, owner := some l, claim := none
                  split := some { mode := shapeMode d, count := n, refs := refs, totals := none } }
              shares := tableOf fun j => if j ∈ refs then .reserved f.tab else s.shares.get j
              computing := computing, waiting := waiting
              ports := s.ports.set l { s.port l with outstanding := some (tag, .split), receiver := .hunting } }
         (s.computing ≠ none → s.waiting.length < 3 →
          exec (.split (.lane l) tag (.fields f)) s = .next (accepted s.computing (s.waiting ++ [job])))
         ∧ (s.computing = none → s.waiting = [] →
          exec (.split (.lane l) tag (.fields f)) s = .next
            (accepted (some
              { job := job, refs := refs
                inputs :=
                  { lines := ((s.tab i).lines.filter fun x => x.state ≠ .voided).map fun x =>
                      { amount := if x.comped then 0 else x.price * x.quantity, taxClass := x.taxClass, seat := x.seat }
                    rates := s.rates, service := (s.tab i).service } }) []))))
  ∧ ∀ (l : Lane) (tag num n : Nat) (i : Slot) (c : Computation) (s : State),
    tillReady l tag s = true → s.findTab num = some i → ((s.tab i).pin = none ∨ l ∈ (s.tab i).unlocked) →
    (s.tab i).state = .opened → (∀ x ∈ (s.tab i).lines, x.state ≠ .entered) →
    (∀ e ∈ s.approvals, e.tab = num → e.ask = .pinClear ∨ ∃ k, e.ask = .undoTender k) → 1 ≤ n → n ≤ 24 →
    n ≤ ((List.finRange 384).filter fun j => s.shares.get j = .free).length → s.computing = some c →
    s.waiting.length < 3 →
    ∃ refs : List ShareNo, refs.length = n ∧ refs.Nodup ∧ (∀ j ∈ refs, s.shares.get j = .free)
      ∧ exec (.split (.lane l) tag (.fields ⟨num, 0, some n, none⟩)) s = .next
        (State.told (toLanes .tabChanged (s.tab i).followers)
          { s with
            tabs := s.tabs.set i
              { s.tab i with
                state := .settling, owner := some l, claim := none
                split := some { mode := .even, count := n, refs := refs, totals := none } }
            shares := tableOf fun j => if j ∈ refs then .reserved num else s.shares.get j
            waiting := s.waiting ++ [{ tab := num, shape := .even n, count := n }]
            ports := s.ports.set l { s.port l with outstanding := some (tag, .split), receiver := .hunting } })

/-- SPLIT_BEGIN: the idle engine takes up the first waiting request, reading lines, rates and service as they stand; that it is a
step of its own, not part of the completion, is the model's choice: log entry 27. SPLIT_COMPLETION of a split that owes something,
its owner present: each record written with its share DUE or PAID, the totals in the split reference, the claim started at 300,
TAB_CHANGED raised, the withheld reply sent and the engine idle. With every due 0 the tab closes at once, without a countdown. With
the owner's port reset meanwhile the split is released, its waiting UNDO_TENDER entries ended STALE, and no reply is sent (R133,
R145, R149, R151, R152, R158, R159). The reply's layout: log entry 14; the notice to a port that two kinds reach: log entry 10. -/
def Obligations.SplitEngineWorks : Prop :=
  ∀ s : State, s.resetPin = false →
    (∀ (job : SplitJob) (rest : List SplitJob) (i : Slot) (r : SplitRef),
      s.computing = none → s.waiting = job :: rest → s.findTab job.tab = some i → (s.tab i).split = some r →
      exec .splitBegin s = .next
        { s with
          waiting := rest
          computing := some
            { job := job, refs := r.refs
              inputs :=
                { lines := ((s.tab i).lines.filter fun x => x.state ≠ .voided).map fun x =>
                    { amount := if x.comped then 0 else x.price * x.quantity, taxClass := x.taxClass, seat := x.seat }
                  rates := s.rates, service := (s.tab i).service } } })
    ∧ (∀ (c : Computation) (i : Slot) (r : SplitRef),
      s.computing = some c → s.findTab c.job.tab = some i → (s.tab i).split = some r → r.refs = c.refs →
      (s.tab i).owner = none → (s.approvals.map Entry.number).Nodup →
      exec .splitCompletion s = .next
        (State.told (both (toLanes .tabChanged (s.tab i).followers) (toRequesters (s.undosOf c.job.tab)))
          (State.ended (s.undosOf c.job.tab) .stale
            { s with
              computing := none
              tabs := s.tabs.set i { s.tab i with state := .opened, split := none, owner := none, claim := none }
              shares := tableOf fun j => if j ∈ r.refs then .free else s.shares.get j })))
    ∧ (∀ (c : Computation) (i : Slot) (r : SplitRef) (l : Lane) (tag : Nat),
      s.computing = some c → s.findTab c.job.tab = some i → (s.tab i).split = some r → r.refs = c.refs →
      c.refs.Nodup → c.refs.length = (splitFigures c.job.shape c.inputs).length →
      (s.tab i).owner = some l → (s.port l).outstanding = some (tag, .split) →
      (s.port l).role = .till → ((s.tab i).pin = none ∨ l ∈ (s.tab i).unlocked) →
      (splitFigures c.job.shape c.inputs).all (fun g => g.due = 0) = true →
      (let figures := splitFigures c.job.shape c.inputs
       ∃ t, exec .splitCompletion s = .next t
        ∧ (∀ (k : Nat) (j : ShareNo) (g : ShareFigures), c.refs[k]? = some j → figures[k]? = some g →
            t.shares.get j = .held
              { tab := c.job.tab, index := k + 1, figures := g, paid := 0, tenders := [], state := .paid })
        ∧ (∀ j, j ∉ c.refs → t.shares.get j = s.shares.get j)
        ∧ t = State.told (both (toLanes .tabChanged (s.tab i).followers) (toPort .closeWaiting .office))
            { s with
              computing := none, shares := t.shares, closeQueue := s.closeQueue ++ [c.job.tab]
              tabs := s.tabs.set i
                { s.tab i with
                  state := .closed, closedAt := some s.clock, owner := none, claim := none
                  split := some { r with totals := some (tabTotals c.inputs) } }
              ports := s.ports.set l
                { s.port l with
                  outstanding := none
                  transmit := (s.port l).transmit ++ [Frame.reply tag 0xB0 .ok
                    ([Field.ident c.job.tab, Field.small c.job.count, Field.amount (tabTotal c.inputs)]
                      ++ [Field.listCount figures.length] ++ figures.map (fun _ => Field.amount 0)
                      ++ [Field.flag true])] } }))
    ∧ ∀ (c : Computation) (i : Slot) (r : SplitRef) (l : Lane) (tag : Nat),
      s.computing = some c → s.findTab c.job.tab = some i → (s.tab i).split = some r → r.refs = c.refs →
      c.refs.Nodup → c.refs.length = (splitFigures c.job.shape c.inputs).length →
      (s.tab i).number = c.job.tab → (s.tab i).owner = some l → (s.port l).outstanding = some (tag, .split) →
      (s.port l).role = .till → ((s.tab i).pin = none ∨ l ∈ (s.tab i).unlocked) →
      (splitFigures c.job.shape c.inputs).any (fun g => g.due ≠ 0) = true →
      (let figures := splitFigures c.job.shape c.inputs
       let written (k : Nat) (g : ShareFigures) : Share :=
          { tab := c.job.tab, index := k + 1, figures := g, paid := 0, tenders := []
            state := if g.due = 0 then .paid else .due }
       ∃ t, exec .splitCompletion s = .next t
        ∧ t.computing = none ∧ t.waiting = s.waiting
        ∧ (∀ (k : Nat) (j : ShareNo) (g : ShareFigures), c.refs[k]? = some j → figures[k]? = some g →
            t.shares.get j = .held (written k g))
        ∧ (∀ j, j ∉ c.refs → t.shares.get j = s.shares.get j)
        ∧ t.tabs = s.tabs.set i
            { s.tab i with claim := some 300, split := some { r with totals := some (tabTotals c.inputs) } }
        ∧ (t.port l).outstanding = none
        ∧ Frame.reply tag 0xB0 .ok
            ([Field.ident c.job.tab, Field.small c.job.count, Field.amount (tabTotal c.inputs)]
              ++ [Field.listCount figures.length] ++ figures.map (fun g => Field.amount g.due) ++ [Field.flag false])
            ∈ (t.port l).transmit
        ∧ (∀ m ∈ (s.tab i).followers, (t.port m).events &&& eventBit .tabChanged ≠ 0)
        ∧ t = { s with
            computing := none, shares := t.shares, tabs := t.tabs, ports := t.ports })

/-- The dues of a split: each is its share's bases, taxes and service part added up, the parts of every figure sum to the tab's
figure of that kind, and the dues sum to the tab total, for every share definition that passes its checks and all inputs
(R142). -/
def Obligations.SplitDuesSumToTotal : Prop :=
  ∀ (d : ShareDef) (inp : SplitInputs),
    (match d with
      | .even n => 1 ≤ n ∧ n ≤ 24
      | .bySeat map => mapOk map = true) →
    (let figures := splitFigures d inp
     let totals := tabTotals inp
     figures.length = shareCount d inp.lines
      ∧ (∀ g ∈ figures, g.due = (g.bases.get 0 + g.bases.get 1 + g.bases.get 2 + g.bases.get 3)
          + (g.taxes.get 0 + g.taxes.get 1 + g.taxes.get 2 + g.taxes.get 3) + g.service)
      ∧ (∀ c : TaxClass, (figures.map fun g => g.bases.get c).sum = totals.bases.get c)
      ∧ (∀ c : TaxClass, (figures.map fun g => g.taxes.get c).sum = totals.taxes.get c)
      ∧ (figures.map fun g => g.service).sum = totals.service
      ∧ (figures.map fun g => g.due).sum = totals.total
      ∧ ∀ g ∈ figures, g.due ≤ totals.total)

/-- The largest-remainder division: every share gets its whole part, the shares ranked before the leftover one cent more, ranks
counting greater remainders and equal ones of lower index; the leftover is below the number of shares and the parts sum to the
amount; with every weight 0 every share gets 0 (R140). -/
def Obligations.ProportionalDivision : Prop :=
  ∀ (amount : Nat) (weights : List Nat),
    (let total := weights.sum
     let parts := allocate amount weights
     parts.length = weights.length
      ∧ (total = 0 → ∀ x ∈ parts, x = 0)
      ∧ (0 < total →
        (let whole (k : Nat) : Nat := amount * weights.getD k 0 / total
         let rem (k : Nat) : Nat := amount * weights.getD k 0 % total
         let leftover := amount - ((List.range weights.length).map whole).sum
         let before (k : Nat) : Nat :=
            ((List.range weights.length).filter fun j => rem k < rem j ∨ (rem k = rem j ∧ j < k)).length
         ((List.range weights.length).map whole).sum ≤ amount ∧ leftover < weights.length
          ∧ (∀ k, k < weights.length → parts.getD k 0 = whole k + if before k < leftover then 1 else 0)
          ∧ parts.sum = amount)))

/-- TENDER by the settle owner on a share that is DUE: the applied amount joins paid with a tender record of it, the share PAID
when paid reaches the due, and the tab, with another share still to pay, stays SETTLING with its claim restarted (R155, R156,
R161). -/
def Obligations.TenderPaysShare : Prop :=
  ∀ (l : Lane) (tag : Nat) (f : TenderFields) (k : TenderKind) (amount : Nat) (i : Slot) (r : SplitRef) (j j' : ShareNo)
    (sh other : Share) (s : State),
    tillReady l tag s = true → s.findTab f.tab = some i → ((s.tab i).pin = none ∨ l ∈ (s.tab i).unlocked) →
    (s.tab i).state = .settling → (s.tab i).split = some r → r.totals ≠ none → (s.tab i).owner = some l →
    s.shareAt (s.tab i) f.share = some (j, sh) → f.kind = tenderKindCode k → f.tip.getD 0 ≤ 99999 →
    (k = .card ∨ f.tip.getD 0 = 0) → sh.state = .due → sh.tenders.length < 4 → f.amount = some amount → 1 ≤ amount →
    (let remaining := sh.figures.due - sh.paid
     (if k = .card then amount ≤ remaining else amount ≤ remaining + 999999) →
     j' ∈ r.refs → s.shares.get j' = .held other → other.state = .due → j' ≠ j →
     (let applied := if k = .card then amount else min amount remaining
      let sh' : Share :=
        { sh with
          paid := sh.paid + applied
          tenders := sh.tenders ++ [{ kind := k, applied := applied, tendered := amount, tip := f.tip.getD 0 }]
          state := if sh.paid + applied = sh.figures.due then .paid else .due }
      exec (.tender (.lane l) tag (.fields f)) s = .next
        (State.answered (.lane l) tag 0x32 .ok
          [Field.small f.share, Field.amount applied, Field.amount (amount - applied), Field.amount (f.tip.getD 0),
            Field.amount sh'.paid, Field.amount (sh.figures.due - sh'.paid), Field.code (shareStateCode sh'.state),
            Field.flag false]
          (toLanes .tabChanged (s.tab i).followers)
          { s with
            tabs := s.tabs.set i ((s.tab i).named (.lane l))
            shares := s.shares.set j (.held sh') })))

/-- A TENDER that pays the last share closes the tab within the request: CLOSED at the clock value, without owner or countdown,
at the end of the close queue, CLOSE_WAITING to the office and TAB_CHANGED to the followers (R156, R158). -/
def Obligations.LastTenderClosesTab : Prop :=
  ∀ (l : Lane) (tag : Nat) (f : TenderFields) (amount : Nat) (i : Slot) (r : SplitRef) (j : ShareNo) (sh : Share)
    (s : State),
    tillReady l tag s = true → s.findTab f.tab = some i → ((s.tab i).pin = none ∨ l ∈ (s.tab i).unlocked) →
    (s.tab i).state = .settling → (s.tab i).split = some r → r.totals ≠ none → (s.tab i).owner = some l →
    s.shareAt (s.tab i) f.share = some (j, sh) → f.kind = 0 → f.tip = none → sh.state = .due → sh.tenders.length < 4 →
    f.amount = some amount → 1 ≤ amount → sh.paid + amount = sh.figures.due →
    (∀ j' other, j' ∈ r.refs → j' ≠ j → s.shares.get j' = .held other → other.state = .paid) →
    exec (.tender (.lane l) tag (.fields f)) s = .next
      (State.answered (.lane l) tag 0x32 .ok
        [Field.small f.share, Field.amount amount, Field.amount 0, Field.amount 0, Field.amount sh.figures.due,
          Field.amount 0, Field.code 1, Field.flag true]
        (both (toLanes .tabChanged (s.tab i).followers) (toPort .closeWaiting .office))
        { s with
          tabs := s.tabs.set i { s.tab i with state := .closed, closedAt := some s.clock, owner := none, claim := none }
          shares := s.shares.set j (.held
            { sh with
              paid := sh.figures.due
              tenders := sh.tenders ++ [{ kind := .card, applied := amount, tendered := amount, tip := 0 }]
              state := .paid })
          closeQueue := s.closeQueue ++ [(s.tab i).number] })

/-- UNDO_TENDER by the settle owner: from the token holder the last tender goes at once and its applied amount leaves paid; from
another till an entry joins the queue and the share keeps its tenders (R157, R125, R117, R118). The reply's layout: log
entry 14. -/
def Obligations.UndoTenderAppliedOrQueued : Prop :=
  ∀ (l : Lane) (tag : Nat) (f : UndoTenderFields) (i : Slot) (r : SplitRef) (j : ShareNo) (sh : Share) (d : Tender)
    (ds : List Tender) (s : State),
    tillReady l tag s = true → s.findTab f.tab = some i → ((s.tab i).pin = none ∨ l ∈ (s.tab i).unlocked) →
    (s.tab i).state = .settling → (s.tab i).split = some r → r.totals ≠ none → (s.tab i).owner = some l →
    s.shareAt (s.tab i) f.share = some (j, sh) → f.reason ≤ 15 → sh.tenders = ds ++ [d] →
    (∀ e ∈ s.approvals, e.tab ≠ (s.tab i).number ∨ e.ask ≠ .undoTender f.share) →
    (s.token = .lane l →
      exec (.undoTender (.lane l) tag (.fields f)) s = .next
        (State.answered (.lane l) tag 0x33 .ok [] (toLanes .tabChanged (s.tab i).followers)
          { s with
            tabs := s.tabs.set i ((s.tab i).named (.lane l))
            shares := s.shares.set j (.held { sh with paid := sh.paid - d.applied, tenders := ds, state := .due }) }))
    ∧ (∀ number : Nat, s.token ≠ .lane l → s.approvals.length < 16 → 1 ≤ s.approvalCounter → s.approvalCounter ≤ 255 →
      FirstFrom 255 s.numberAsked s.approvalCounter number →
      exec (.undoTender (.lane l) tag (.fields f)) s = .next
        (State.answered (.lane l) tag 0x33 .queued [Field.small number] (toPort .approvalWaiting s.token)
          { s with
            tabs := s.tabs.set i ((s.tab i).named (.lane l))
            approvals := s.approvals ++
              [{ number := number, ask := .undoTender f.share, requester := l, tab := (s.tab i).number
                 reason := f.reason, queuedAt := s.clock }]
            approvalCounter := if number < 255 then number + 1 else 1 }))

/-- DROP_SPLIT by the settle owner: WRONG_STATE while a share holds a tender, and otherwise the split released: the records free,
the tab OPEN and unowned, its waiting UNDO_TENDER entries ended STALE in arrival order, TAB_CHANGED raised (R159, R160, R129). The
notice to a port that two kinds reach: log entry 10. -/
def Obligations.DropSplitReleases : Prop :=
  ∀ (l : Lane) (tag n : Nat) (i : Slot) (r : SplitRef) (s : State),
    tillReady l tag s = true → s.findTab n = some i → ((s.tab i).pin = none ∨ l ∈ (s.tab i).unlocked) →
    (s.tab i).state = .settling → (s.tab i).split = some r → r.totals ≠ none → (s.tab i).owner = some l →
    ((s.sharesOf (s.tab i)).any (fun sh => sh.tenders ≠ []) = true →
      exec (.dropSplit (.lane l) tag (.fields n)) s = .next
        (State.answered (.lane l) tag 0x34 .wrongState [] nobody
          { s with tabs := s.tabs.set i ((s.tab i).named (.lane l)) }))
    ∧ ((s.sharesOf (s.tab i)).any (fun sh => sh.tenders ≠ []) = false → (s.approvals.map Entry.number).Nodup →
      exec (.dropSplit (.lane l) tag (.fields n)) s = .next
        (State.answered (.lane l) tag 0x34 .ok []
          (both (toLanes .tabChanged (s.tab i).followers) (toRequesters (s.undosOf n)))
          (State.ended (s.undosOf n) .stale
            { s with
              tabs := s.tabs.set i { s.tab i with state := .opened, split := none, owner := none, claim := none }
              shares := tableOf fun j => if j ∈ r.refs then .free else s.shares.get j })))

/-- ADOPT by an unlocked till of an ownerless split: the till owns the tab with its claim at 300. TAKE_CLOSED: NOTHING with the
queue empty; otherwise the first closed tab leaves the queue, its records are free, and with live tickets left it is EXPORTED;
with none it is FREE: its entries ended STALE, its DONE tickets in no recall list, its slot at the FREE values (R164, R166, R23,
R128, R21). The number in a FREE slot: log entry 24; the replies' layout: log entry 14; the notice to a port that two kinds reach:
log entry 10. -/
def Obligations.AdoptAndTakeClosed : Prop :=
  (∀ (l : Lane) (tag n : Nat) (i : Slot) (r : SplitRef) (x : Totals) (s : State),
    tillReady l tag s = true → s.findTab n = some i → ((s.tab i).pin = none ∨ l ∈ (s.tab i).unlocked) →
    (s.tab i).state = .settling → (s.tab i).split = some r → r.totals = some x → (s.tab i).owner = none →
    exec (.adopt (.lane l) tag (.fields n)) s = .next
      (State.answered (.lane l) tag 0x35 .ok
        ([Field.small r.count, Field.amount x.total, Field.listCount (s.sharesOf (s.tab i)).length]
          ++ (s.sharesOf (s.tab i)).map fun sh => Field.amount (sh.figures.due - sh.paid))
        (toLanes .tabChanged (s.tab i).followers)
        { s with tabs := s.tabs.set i { s.tab i with owner := some l, claim := some 300 } }))
  ∧ ∀ (tag : Nat) (s : State), officeReady tag s = true →
    (s.closeQueue = [] →
      exec (.takeClosed .office tag (.fields ())) s = .next (s.answered .office tag 0x36 .nothing [] nobody))
    ∧ ∀ (n : Nat) (rest : List Nat) (i : Slot) (r : SplitRef) (x : Totals),
      s.closeQueue = n :: rest → s.findTab n = some i → (s.tab i).split = some r → r.totals = some x →
      (1 ≤ (s.tab i).live →
       exec (.takeClosed .office tag (.fields ())) s = .next
        (State.answered .office tag 0x36 .ok (closeSummary (s.tab i) r x (s.sharesOf (s.tab i)))
          (toLanes .tabChanged (s.tab i).followers)
          { s with
            closeQueue := rest
            tabs := s.tabs.set i { s.tab i with state := .exported, split := none }
            shares := tableOf fun j => if j ∈ r.refs then .free else s.shares.get j }))
      ∧ ((s.tab i).live = 0 → (s.approvals.map Entry.number).Nodup →
        (let gone := s.approvals.filter fun e => e.tab = n
         exec (.takeClosed .office tag (.fields ())) s = .next
          (State.answered .office tag 0x36 .ok (closeSummary (s.tab i) r x (s.sharesOf (s.tab i)))
            (both (toLanes .tabChanged (s.tab i).followers) (toRequesters gone))
            (State.ended gone .stale
              { s with
                closeQueue := rest
                tabs := s.tabs.set i
                  { number := 0, state := .free, opener := none, openedAt := 0, closedAt := none, service := 0, pin := none
                    wrongTries := 0, unlocked := [], followers := [], lines := [], base := 0, live := 0, owner := none
                    claim := none, split := none }
                stations := tableOf fun st =>
                  { s.station st with recalls := (s.station st).recalls.filter fun y => y.tab ≠ n }
                shares := tableOf fun j => if j ∈ r.refs then .free else s.shares.get j }))))

/-! ### What every step keeps -/

/-- No step breaks the running bases: from any state in which every base is the sum of the amounts of the tab's lines that are
not VOIDED, a step leads to such a state (R30). -/
def Obligations.RunningBasesAreKept : Prop := Kept BaseHolds

/-- No step breaks the relation of count and reserved quantity, and none breaks that every item's reserved quantity is the sum of
the quantities of its ENTERED lines over all tabs (R2). The second is kept with what makes it hold: only OPEN tabs have ENTERED
lines, splits in hand are of SETTLING tabs, and the close queue names CLOSED tabs (R147, R148, R166, R21). -/
def Obligations.CatalogueRelationIsKept : Prop :=
  Kept CatalogueHolds ∧ Kept fun s => ReservedHolds s ∧ TabsHold s

/-- No step leaves the token with a port that may not hold it, nor a station and its port naming different partners (R110,
R167). -/
def Obligations.PortTableIsKept : Prop := Kept PortTableHolds

/-- No step fills a transmit list past the eight frames it holds (R167): the room kept for a withheld SPLIT reply and for a notice
makes the bound inductive (the frame being sent counts: log entry 11). No step fills another list of the part past its capacity or
gives two entries one approval number: station queues, stacks and recall lists (R85), lines (R27), followers (R45), approvals
(R116, R118), results (R129), waiting splits (R149). -/
def Obligations.TransmitListsKeepRoom : Prop :=
  (Kept TransmitHolds ∧ ∀ s l, TransmitHolds s → (s.port l).transmit.length ≤ 8) ∧ Kept ListsHold

/-- No step breaks the books of a share: paid is the sum of what its tenders applied, never above its due, and the share is PAID
exactly when it equals the due (R153). -/
def Obligations.ShareBooksAreKept : Prop := Kept SharesHold

/-- The state after a device reset has every invariant that is stated above to be kept. -/
def Obligations.InvariantsHoldAtReset : Prop :=
  BaseHolds State.reset ∧ CatalogueHolds State.reset ∧ PortTableHolds State.reset ∧ TransmitHolds State.reset
    ∧ SharesHold State.reset ∧ ListsHold State.reset ∧ ReservedHolds State.reset ∧ TabsHold State.reset

/-- A locked lane port is shown no money: every amount and rate of a TAB_VIEW or SHARE_VIEW reply is 0, and so is the new unit price
of every APPROVAL_LIST entry whose tab it is locked for; the replies to a station's own requests carry no field of money at all
(R59, R60). -/
def Obligations.LockedPortsSeeNoMoney : Prop :=
  (∀ (l : Lane) (f : TabPageFields) (i : Slot) (s s' : State) (rep : Reply),
    s.findTab f.tab = some i → lockedPort (.lane l) (s.tab i) s = true →
    (tabView (.lane l) f s = (s', some rep) ∨ shareView (.lane l) f s = (s', some rep)) →
    ∀ x ∈ rep.body, x.hidesMoney = true)
  ∧ (∀ (l : Lane) (start : Nat) (s s' : State) (rep : Reply), approvalList (.lane l) start s = (s', some rep) →
    (∀ e ∈ s.approvals, lockedPort (.lane l) (s.tabNumbered e.tab) s = true →
      ∀ x ∈ entryFields (.lane l) s e, x.hidesMoney = true)
    ∧ ((∀ e ∈ s.approvals, lockedPort (.lane l) (s.tabNumbered e.tab) s = true) →
      ∀ x ∈ rep.body, x.hidesMoney = true))
  ∧ ∀ (st : StationNo) (l : Lane) (n : Nat) (asked : StationState) (s s' : State) (rep : Reply),
    (rail st () s = (s', some rep) ∨ take st () s = (s', some rep) ∨ resume st () s = (s', some rep)
      ∨ recallTicket st n s = (s', some rep) ∨ stationView st n s = (s', some rep) ∨ bump st () s = (s', some rep)
      ∨ holdLow st n s = (s', some rep) ∨ pauseOrOpen asked (.lane l) none s = (s', some rep)) →
    ∀ x ∈ rep.body, x.isNotMoney = true
end

