-- ==== Sys2Proof/Laws/State.lean ====
section
/-! SUPPORT. What each update of State leaves in each field, and what the accessors read after it. -/

namespace Sys2Proof.Machine

/-! ### Field by field: the record updates -/

@[simp] theorem State.setTab_items (s : State) (i : Slot) (x : Tab) : (s.setTab i x).items = s.items := rfl
@[simp] theorem State.setTab_modifiers (s : State) (i : Slot) (x : Tab) : (s.setTab i x).modifiers = s.modifiers := rfl
@[simp] theorem State.setTab_rates (s : State) (i : Slot) (x : Tab) : (s.setTab i x).rates = s.rates := rfl
@[simp] theorem State.setTab_priorities (s : State) (i : Slot) (x : Tab) : (s.setTab i x).priorities = s.priorities := rfl
@[simp] theorem State.setTab_tabs (s : State) (i : Slot) (x : Tab) : (s.setTab i x).tabs = s.tabs.set i x := rfl
@[simp] theorem State.setTab_tabCounter (s : State) (i : Slot) (x : Tab) : (s.setTab i x).tabCounter = s.tabCounter := rfl
@[simp] theorem State.setTab_stations (s : State) (i : Slot) (x : Tab) : (s.setTab i x).stations = s.stations := rfl
@[simp] theorem State.setTab_ticketCounter (s : State) (i : Slot) (x : Tab) : (s.setTab i x).ticketCounter = s.ticketCounter := rfl
@[simp] theorem State.setTab_fireSeq (s : State) (i : Slot) (x : Tab) : (s.setTab i x).fireSeq = s.fireSeq := rfl
@[simp] theorem State.setTab_token (s : State) (i : Slot) (x : Tab) : (s.setTab i x).token = s.token := rfl
@[simp] theorem State.setTab_approvals (s : State) (i : Slot) (x : Tab) : (s.setTab i x).approvals = s.approvals := rfl
@[simp] theorem State.setTab_approvalCounter (s : State) (i : Slot) (x : Tab) : (s.setTab i x).approvalCounter = s.approvalCounter := rfl
@[simp] theorem State.setTab_results (s : State) (i : Slot) (x : Tab) : (s.setTab i x).results = s.results := rfl
@[simp] theorem State.setTab_computing (s : State) (i : Slot) (x : Tab) : (s.setTab i x).computing = s.computing := rfl
@[simp] theorem State.setTab_waiting (s : State) (i : Slot) (x : Tab) : (s.setTab i x).waiting = s.waiting := rfl
@[simp] theorem State.setTab_shares (s : State) (i : Slot) (x : Tab) : (s.setTab i x).shares = s.shares := rfl
@[simp] theorem State.setTab_closeQueue (s : State) (i : Slot) (x : Tab) : (s.setTab i x).closeQueue = s.closeQueue := rfl
@[simp] theorem State.setTab_ports (s : State) (i : Slot) (x : Tab) : (s.setTab i x).ports = s.ports := rfl
@[simp] theorem State.setTab_officeEvents (s : State) (i : Slot) (x : Tab) : (s.setTab i x).officeEvents = s.officeEvents := rfl
@[simp] theorem State.setTab_officeMask (s : State) (i : Slot) (x : Tab) : (s.setTab i x).officeMask = s.officeMask := rfl
@[simp] theorem State.setTab_replySlot (s : State) (i : Slot) (x : Tab) : (s.setTab i x).replySlot = s.replySlot := rfl
@[simp] theorem State.setTab_replyPosition (s : State) (i : Slot) (x : Tab) : (s.setTab i x).replyPosition = s.replyPosition := rfl
@[simp] theorem State.setTab_officeReceiver (s : State) (i : Slot) (x : Tab) : (s.setTab i x).officeReceiver = s.officeReceiver := rfl
@[simp] theorem State.setTab_clock (s : State) (i : Slot) (x : Tab) : (s.setTab i x).clock = s.clock := rfl
@[simp] theorem State.setTab_resetPin (s : State) (i : Slot) (x : Tab) : (s.setTab i x).resetPin = s.resetPin := rfl
@[simp] theorem State.setTab_draws (s : State) (i : Slot) (x : Tab) : (s.setTab i x).draws = s.draws := rfl
@[simp] theorem State.setTab_pending (s : State) (i : Slot) (x : Tab) : (s.setTab i x).pending = s.pending := rfl

@[simp] theorem State.setItem_items (s : State) (i : ItemNo) (x : Item) : (s.setItem i x).items = s.items.set i x := rfl
@[simp] theorem State.setItem_modifiers (s : State) (i : ItemNo) (x : Item) : (s.setItem i x).modifiers = s.modifiers := rfl
@[simp] theorem State.setItem_rates (s : State) (i : ItemNo) (x : Item) : (s.setItem i x).rates = s.rates := rfl
@[simp] theorem State.setItem_priorities (s : State) (i : ItemNo) (x : Item) : (s.setItem i x).priorities = s.priorities := rfl
@[simp] theorem State.setItem_tabs (s : State) (i : ItemNo) (x : Item) : (s.setItem i x).tabs = s.tabs := rfl
@[simp] theorem State.setItem_tabCounter (s : State) (i : ItemNo) (x : Item) : (s.setItem i x).tabCounter = s.tabCounter := rfl
@[simp] theorem State.setItem_stations (s : State) (i : ItemNo) (x : Item) : (s.setItem i x).stations = s.stations := rfl
@[simp] theorem State.setItem_ticketCounter (s : State) (i : ItemNo) (x : Item) : (s.setItem i x).ticketCounter = s.ticketCounter := rfl
@[simp] theorem State.setItem_fireSeq (s : State) (i : ItemNo) (x : Item) : (s.setItem i x).fireSeq = s.fireSeq := rfl
@[simp] theorem State.setItem_token (s : State) (i : ItemNo) (x : Item) : (s.setItem i x).token = s.token := rfl
@[simp] theorem State.setItem_approvals (s : State) (i : ItemNo) (x : Item) : (s.setItem i x).approvals = s.approvals := rfl
@[simp] theorem State.setItem_approvalCounter (s : State) (i : ItemNo) (x : Item) : (s.setItem i x).approvalCounter = s.approvalCounter := rfl
@[simp] theorem State.setItem_results (s : State) (i : ItemNo) (x : Item) : (s.setItem i x).results = s.results := rfl
@[simp] theorem State.setItem_computing (s : State) (i : ItemNo) (x : Item) : (s.setItem i x).computing = s.computing := rfl
@[simp] theorem State.setItem_waiting (s : State) (i : ItemNo) (x : Item) : (s.setItem i x).waiting = s.waiting := rfl
@[simp] theorem State.setItem_shares (s : State) (i : ItemNo) (x : Item) : (s.setItem i x).shares = s.shares := rfl
@[simp] theorem State.setItem_closeQueue (s : State) (i : ItemNo) (x : Item) : (s.setItem i x).closeQueue = s.closeQueue := rfl
@[simp] theorem State.setItem_ports (s : State) (i : ItemNo) (x : Item) : (s.setItem i x).ports = s.ports := rfl
@[simp] theorem State.setItem_officeEvents (s : State) (i : ItemNo) (x : Item) : (s.setItem i x).officeEvents = s.officeEvents := rfl
@[simp] theorem State.setItem_officeMask (s : State) (i : ItemNo) (x : Item) : (s.setItem i x).officeMask = s.officeMask := rfl
@[simp] theorem State.setItem_replySlot (s : State) (i : ItemNo) (x : Item) : (s.setItem i x).replySlot = s.replySlot := rfl
@[simp] theorem State.setItem_replyPosition (s : State) (i : ItemNo) (x : Item) : (s.setItem i x).replyPosition = s.replyPosition := rfl
@[simp] theorem State.setItem_officeReceiver (s : State) (i : ItemNo) (x : Item) : (s.setItem i x).officeReceiver = s.officeReceiver := rfl
@[simp] theorem State.setItem_clock (s : State) (i : ItemNo) (x : Item) : (s.setItem i x).clock = s.clock := rfl
@[simp] theorem State.setItem_resetPin (s : State) (i : ItemNo) (x : Item) : (s.setItem i x).resetPin = s.resetPin := rfl
@[simp] theorem State.setItem_draws (s : State) (i : ItemNo) (x : Item) : (s.setItem i x).draws = s.draws := rfl
@[simp] theorem State.setItem_pending (s : State) (i : ItemNo) (x : Item) : (s.setItem i x).pending = s.pending := rfl

@[simp] theorem State.setStation_items (s : State) (i : StationNo) (x : Station) : (s.setStation i x).items = s.items := rfl
@[simp] theorem State.setStation_modifiers (s : State) (i : StationNo) (x : Station) : (s.setStation i x).modifiers = s.modifiers := rfl
@[simp] theorem State.setStation_rates (s : State) (i : StationNo) (x : Station) : (s.setStation i x).rates = s.rates := rfl
@[simp] theorem State.setStation_priorities (s : State) (i : StationNo) (x : Station) : (s.setStation i x).priorities = s.priorities := rfl
@[simp] theorem State.setStation_tabs (s : State) (i : StationNo) (x : Station) : (s.setStation i x).tabs = s.tabs := rfl
@[simp] theorem State.setStation_tabCounter (s : State) (i : StationNo) (x : Station) : (s.setStation i x).tabCounter = s.tabCounter := rfl
@[simp] theorem State.setStation_stations (s : State) (i : StationNo) (x : Station) : (s.setStation i x).stations = s.stations.set i x := rfl
@[simp] theorem State.setStation_ticketCounter (s : State) (i : StationNo) (x : Station) : (s.setStation i x).ticketCounter = s.ticketCounter := rfl
@[simp] theorem State.setStation_fireSeq (s : State) (i : StationNo) (x : Station) : (s.setStation i x).fireSeq = s.fireSeq := rfl
@[simp] theorem State.setStation_token (s : State) (i : StationNo) (x : Station) : (s.setStation i x).token = s.token := rfl
@[simp] theorem State.setStation_approvals (s : State) (i : StationNo) (x : Station) : (s.setStation i x).approvals = s.approvals := rfl
@[simp] theorem State.setStation_approvalCounter (s : State) (i : StationNo) (x : Station) : (s.setStation i x).approvalCounter = s.approvalCounter := rfl
@[simp] theorem State.setStation_results (s : State) (i : StationNo) (x : Station) : (s.setStation i x).results = s.results := rfl
@[simp] theorem State.setStation_computing (s : State) (i : StationNo) (x : Station) : (s.setStation i x).computing = s.computing := rfl
@[simp] theorem State.setStation_waiting (s : State) (i : StationNo) (x : Station) : (s.setStation i x).waiting = s.waiting := rfl
@[simp] theorem State.setStation_shares (s : State) (i : StationNo) (x : Station) : (s.setStation i x).shares = s.shares := rfl
@[simp] theorem State.setStation_closeQueue (s : State) (i : StationNo) (x : Station) : (s.setStation i x).closeQueue = s.closeQueue := rfl
@[simp] theorem State.setStation_ports (s : State) (i : StationNo) (x : Station) : (s.setStation i x).ports = s.ports := rfl
@[simp] theorem State.setStation_officeEvents (s : State) (i : StationNo) (x : Station) : (s.setStation i x).officeEvents = s.officeEvents := rfl
@[simp] theorem State.setStation_officeMask (s : State) (i : StationNo) (x : Station) : (s.setStation i x).officeMask = s.officeMask := rfl
@[simp] theorem State.setStation_replySlot (s : State) (i : StationNo) (x : Station) : (s.setStation i x).replySlot = s.replySlot := rfl
@[simp] theorem State.setStation_replyPosition (s : State) (i : StationNo) (x : Station) : (s.setStation i x).replyPosition = s.replyPosition := rfl
@[simp] theorem State.setStation_officeReceiver (s : State) (i : StationNo) (x : Station) : (s.setStation i x).officeReceiver = s.officeReceiver := rfl
@[simp] theorem State.setStation_clock (s : State) (i : StationNo) (x : Station) : (s.setStation i x).clock = s.clock := rfl
@[simp] theorem State.setStation_resetPin (s : State) (i : StationNo) (x : Station) : (s.setStation i x).resetPin = s.resetPin := rfl
@[simp] theorem State.setStation_draws (s : State) (i : StationNo) (x : Station) : (s.setStation i x).draws = s.draws := rfl
@[simp] theorem State.setStation_pending (s : State) (i : StationNo) (x : Station) : (s.setStation i x).pending = s.pending := rfl

@[simp] theorem State.setPort_items (s : State) (i : Lane) (x : PortEntry) : (s.setPort i x).items = s.items := rfl
@[simp] theorem State.setPort_modifiers (s : State) (i : Lane) (x : PortEntry) : (s.setPort i x).modifiers = s.modifiers := rfl
@[simp] theorem State.setPort_rates (s : State) (i : Lane) (x : PortEntry) : (s.setPort i x).rates = s.rates := rfl
@[simp] theorem State.setPort_priorities (s : State) (i : Lane) (x : PortEntry) : (s.setPort i x).priorities = s.priorities := rfl
@[simp] theorem State.setPort_tabs (s : State) (i : Lane) (x : PortEntry) : (s.setPort i x).tabs = s.tabs := rfl
@[simp] theorem State.setPort_tabCounter (s : State) (i : Lane) (x : PortEntry) : (s.setPort i x).tabCounter = s.tabCounter := rfl
@[simp] theorem State.setPort_stations (s : State) (i : Lane) (x : PortEntry) : (s.setPort i x).stations = s.stations := rfl
@[simp] theorem State.setPort_ticketCounter (s : State) (i : Lane) (x : PortEntry) : (s.setPort i x).ticketCounter = s.ticketCounter := rfl
@[simp] theorem State.setPort_fireSeq (s : State) (i : Lane) (x : PortEntry) : (s.setPort i x).fireSeq = s.fireSeq := rfl
@[simp] theorem State.setPort_token (s : State) (i : Lane) (x : PortEntry) : (s.setPort i x).token = s.token := rfl
@[simp] theorem State.setPort_approvals (s : State) (i : Lane) (x : PortEntry) : (s.setPort i x).approvals = s.approvals := rfl
@[simp] theorem State.setPort_approvalCounter (s : State) (i : Lane) (x : PortEntry) : (s.setPort i x).approvalCounter = s.approvalCounter := rfl
@[simp] theorem State.setPort_results (s : State) (i : Lane) (x : PortEntry) : (s.setPort i x).results = s.results := rfl
@[simp] theorem State.setPort_computing (s : State) (i : Lane) (x : PortEntry) : (s.setPort i x).computing = s.computing := rfl
@[simp] theorem State.setPort_waiting (s : State) (i : Lane) (x : PortEntry) : (s.setPort i x).waiting = s.waiting := rfl
@[simp] theorem State.setPort_shares (s : State) (i : Lane) (x : PortEntry) : (s.setPort i x).shares = s.shares := rfl
@[simp] theorem State.setPort_closeQueue (s : State) (i : Lane) (x : PortEntry) : (s.setPort i x).closeQueue = s.closeQueue := rfl
@[simp] theorem State.setPort_ports (s : State) (i : Lane) (x : PortEntry) : (s.setPort i x).ports = s.ports.set i x := rfl
@[simp] theorem State.setPort_officeEvents (s : State) (i : Lane) (x : PortEntry) : (s.setPort i x).officeEvents = s.officeEvents := rfl
@[simp] theorem State.setPort_officeMask (s : State) (i : Lane) (x : PortEntry) : (s.setPort i x).officeMask = s.officeMask := rfl
@[simp] theorem State.setPort_replySlot (s : State) (i : Lane) (x : PortEntry) : (s.setPort i x).replySlot = s.replySlot := rfl
@[simp] theorem State.setPort_replyPosition (s : State) (i : Lane) (x : PortEntry) : (s.setPort i x).replyPosition = s.replyPosition := rfl
@[simp] theorem State.setPort_officeReceiver (s : State) (i : Lane) (x : PortEntry) : (s.setPort i x).officeReceiver = s.officeReceiver := rfl
@[simp] theorem State.setPort_clock (s : State) (i : Lane) (x : PortEntry) : (s.setPort i x).clock = s.clock := rfl
@[simp] theorem State.setPort_resetPin (s : State) (i : Lane) (x : PortEntry) : (s.setPort i x).resetPin = s.resetPin := rfl
@[simp] theorem State.setPort_draws (s : State) (i : Lane) (x : PortEntry) : (s.setPort i x).draws = s.draws := rfl
@[simp] theorem State.setPort_pending (s : State) (i : Lane) (x : PortEntry) : (s.setPort i x).pending = s.pending := rfl

@[simp] theorem State.setShare_items (s : State) (i : ShareNo) (x : ShareRecord) : (s.setShare i x).items = s.items := rfl
@[simp] theorem State.setShare_modifiers (s : State) (i : ShareNo) (x : ShareRecord) : (s.setShare i x).modifiers = s.modifiers := rfl
@[simp] theorem State.setShare_rates (s : State) (i : ShareNo) (x : ShareRecord) : (s.setShare i x).rates = s.rates := rfl
@[simp] theorem State.setShare_priorities (s : State) (i : ShareNo) (x : ShareRecord) : (s.setShare i x).priorities = s.priorities := rfl
@[simp] theorem State.setShare_tabs (s : State) (i : ShareNo) (x : ShareRecord) : (s.setShare i x).tabs = s.tabs := rfl
@[simp] theorem State.setShare_tabCounter (s : State) (i : ShareNo) (x : ShareRecord) : (s.setShare i x).tabCounter = s.tabCounter := rfl
@[simp] theorem State.setShare_stations (s : State) (i : ShareNo) (x : ShareRecord) : (s.setShare i x).stations = s.stations := rfl
@[simp] theorem State.setShare_ticketCounter (s : State) (i : ShareNo) (x : ShareRecord) : (s.setShare i x).ticketCounter = s.ticketCounter := rfl
@[simp] theorem State.setShare_fireSeq (s : State) (i : ShareNo) (x : ShareRecord) : (s.setShare i x).fireSeq = s.fireSeq := rfl
@[simp] theorem State.setShare_token (s : State) (i : ShareNo) (x : ShareRecord) : (s.setShare i x).token = s.token := rfl
@[simp] theorem State.setShare_approvals (s : State) (i : ShareNo) (x : ShareRecord) : (s.setShare i x).approvals = s.approvals := rfl
@[simp] theorem State.setShare_approvalCounter (s : State) (i : ShareNo) (x : ShareRecord) : (s.setShare i x).approvalCounter = s.approvalCounter := rfl
@[simp] theorem State.setShare_results (s : State) (i : ShareNo) (x : ShareRecord) : (s.setShare i x).results = s.results := rfl
@[simp] theorem State.setShare_computing (s : State) (i : ShareNo) (x : ShareRecord) : (s.setShare i x).computing = s.computing := rfl
@[simp] theorem State.setShare_waiting (s : State) (i : ShareNo) (x : ShareRecord) : (s.setShare i x).waiting = s.waiting := rfl
@[simp] theorem State.setShare_shares (s : State) (i : ShareNo) (x : ShareRecord) : (s.setShare i x).shares = s.shares.set i x := rfl
@[simp] theorem State.setShare_closeQueue (s : State) (i : ShareNo) (x : ShareRecord) : (s.setShare i x).closeQueue = s.closeQueue := rfl
@[simp] theorem State.setShare_ports (s : State) (i : ShareNo) (x : ShareRecord) : (s.setShare i x).ports = s.ports := rfl
@[simp] theorem State.setShare_officeEvents (s : State) (i : ShareNo) (x : ShareRecord) : (s.setShare i x).officeEvents = s.officeEvents := rfl
@[simp] theorem State.setShare_officeMask (s : State) (i : ShareNo) (x : ShareRecord) : (s.setShare i x).officeMask = s.officeMask := rfl
@[simp] theorem State.setShare_replySlot (s : State) (i : ShareNo) (x : ShareRecord) : (s.setShare i x).replySlot = s.replySlot := rfl
@[simp] theorem State.setShare_replyPosition (s : State) (i : ShareNo) (x : ShareRecord) : (s.setShare i x).replyPosition = s.replyPosition := rfl
@[simp] theorem State.setShare_officeReceiver (s : State) (i : ShareNo) (x : ShareRecord) : (s.setShare i x).officeReceiver = s.officeReceiver := rfl
@[simp] theorem State.setShare_clock (s : State) (i : ShareNo) (x : ShareRecord) : (s.setShare i x).clock = s.clock := rfl
@[simp] theorem State.setShare_resetPin (s : State) (i : ShareNo) (x : ShareRecord) : (s.setShare i x).resetPin = s.resetPin := rfl
@[simp] theorem State.setShare_draws (s : State) (i : ShareNo) (x : ShareRecord) : (s.setShare i x).draws = s.draws := rfl
@[simp] theorem State.setShare_pending (s : State) (i : ShareNo) (x : ShareRecord) : (s.setShare i x).pending = s.pending := rfl

/-! ### Field by field: the token, and a frame of a port ended -/

@[simp] theorem giveToken_items (s : State) (p : Port) : (giveToken p s).items = s.items := rfl
@[simp] theorem giveToken_modifiers (s : State) (p : Port) : (giveToken p s).modifiers = s.modifiers := rfl
@[simp] theorem giveToken_rates (s : State) (p : Port) : (giveToken p s).rates = s.rates := rfl
@[simp] theorem giveToken_priorities (s : State) (p : Port) : (giveToken p s).priorities = s.priorities := rfl
@[simp] theorem giveToken_tabs (s : State) (p : Port) : (giveToken p s).tabs = s.tabs := rfl
@[simp] theorem giveToken_tabCounter (s : State) (p : Port) : (giveToken p s).tabCounter = s.tabCounter := rfl
@[simp] theorem giveToken_stations (s : State) (p : Port) : (giveToken p s).stations = s.stations := rfl
@[simp] theorem giveToken_ticketCounter (s : State) (p : Port) : (giveToken p s).ticketCounter = s.ticketCounter := rfl
@[simp] theorem giveToken_fireSeq (s : State) (p : Port) : (giveToken p s).fireSeq = s.fireSeq := rfl
@[simp] theorem giveToken_token (s : State) (p : Port) : (giveToken p s).token = p := rfl
@[simp] theorem giveToken_approvals (s : State) (p : Port) : (giveToken p s).approvals = s.approvals := rfl
@[simp] theorem giveToken_approvalCounter (s : State) (p : Port) : (giveToken p s).approvalCounter = s.approvalCounter := rfl
@[simp] theorem giveToken_results (s : State) (p : Port) : (giveToken p s).results = s.results := rfl
@[simp] theorem giveToken_computing (s : State) (p : Port) : (giveToken p s).computing = s.computing := rfl
@[simp] theorem giveToken_waiting (s : State) (p : Port) : (giveToken p s).waiting = s.waiting := rfl
@[simp] theorem giveToken_shares (s : State) (p : Port) : (giveToken p s).shares = s.shares := rfl
@[simp] theorem giveToken_closeQueue (s : State) (p : Port) : (giveToken p s).closeQueue = s.closeQueue := rfl
@[simp] theorem giveToken_ports (s : State) (p : Port) : (giveToken p s).ports = s.ports := rfl
@[simp] theorem giveToken_officeEvents (s : State) (p : Port) : (giveToken p s).officeEvents = s.officeEvents := rfl
@[simp] theorem giveToken_officeMask (s : State) (p : Port) : (giveToken p s).officeMask = s.officeMask := rfl
@[simp] theorem giveToken_replySlot (s : State) (p : Port) : (giveToken p s).replySlot = s.replySlot := rfl
@[simp] theorem giveToken_replyPosition (s : State) (p : Port) : (giveToken p s).replyPosition = s.replyPosition := rfl
@[simp] theorem giveToken_officeReceiver (s : State) (p : Port) : (giveToken p s).officeReceiver = s.officeReceiver := rfl
@[simp] theorem giveToken_clock (s : State) (p : Port) : (giveToken p s).clock = s.clock := rfl
@[simp] theorem giveToken_resetPin (s : State) (p : Port) : (giveToken p s).resetPin = s.resetPin := rfl
@[simp] theorem giveToken_draws (s : State) (p : Port) : (giveToken p s).draws = s.draws := rfl
@[simp] theorem giveToken_pending (s : State) (p : Port) : (giveToken p s).pending = s.pending := rfl

@[simp] theorem huntAgain_items (s : State) (p : Port) : (huntAgain p s).items = s.items := by cases p <;> rfl
@[simp] theorem huntAgain_modifiers (s : State) (p : Port) : (huntAgain p s).modifiers = s.modifiers := by cases p <;> rfl
@[simp] theorem huntAgain_rates (s : State) (p : Port) : (huntAgain p s).rates = s.rates := by cases p <;> rfl
@[simp] theorem huntAgain_priorities (s : State) (p : Port) : (huntAgain p s).priorities = s.priorities := by cases p <;> rfl
@[simp] theorem huntAgain_tabs (s : State) (p : Port) : (huntAgain p s).tabs = s.tabs := by cases p <;> rfl
@[simp] theorem huntAgain_tabCounter (s : State) (p : Port) : (huntAgain p s).tabCounter = s.tabCounter := by cases p <;> rfl
@[simp] theorem huntAgain_stations (s : State) (p : Port) : (huntAgain p s).stations = s.stations := by cases p <;> rfl
@[simp] theorem huntAgain_ticketCounter (s : State) (p : Port) : (huntAgain p s).ticketCounter = s.ticketCounter := by cases p <;> rfl
@[simp] theorem huntAgain_fireSeq (s : State) (p : Port) : (huntAgain p s).fireSeq = s.fireSeq := by cases p <;> rfl
@[simp] theorem huntAgain_token (s : State) (p : Port) : (huntAgain p s).token = s.token := by cases p <;> rfl
@[simp] theorem huntAgain_approvals (s : State) (p : Port) : (huntAgain p s).approvals = s.approvals := by cases p <;> rfl
@[simp] theorem huntAgain_approvalCounter (s : State) (p : Port) : (huntAgain p s).approvalCounter = s.approvalCounter := by cases p <;> rfl
@[simp] theorem huntAgain_results (s : State) (p : Port) : (huntAgain p s).results = s.results := by cases p <;> rfl
@[simp] theorem huntAgain_computing (s : State) (p : Port) : (huntAgain p s).computing = s.computing := by cases p <;> rfl
@[simp] theorem huntAgain_waiting (s : State) (p : Port) : (huntAgain p s).waiting = s.waiting := by cases p <;> rfl
@[simp] theorem huntAgain_shares (s : State) (p : Port) : (huntAgain p s).shares = s.shares := by cases p <;> rfl
@[simp] theorem huntAgain_closeQueue (s : State) (p : Port) : (huntAgain p s).closeQueue = s.closeQueue := by cases p <;> rfl
@[simp] theorem huntAgain_officeEvents (s : State) (p : Port) : (huntAgain p s).officeEvents = s.officeEvents := by cases p <;> rfl
@[simp] theorem huntAgain_officeMask (s : State) (p : Port) : (huntAgain p s).officeMask = s.officeMask := by cases p <;> rfl
@[simp] theorem huntAgain_replySlot (s : State) (p : Port) : (huntAgain p s).replySlot = s.replySlot := by cases p <;> rfl
@[simp] theorem huntAgain_replyPosition (s : State) (p : Port) : (huntAgain p s).replyPosition = s.replyPosition := by cases p <;> rfl
@[simp] theorem huntAgain_clock (s : State) (p : Port) : (huntAgain p s).clock = s.clock := by cases p <;> rfl
@[simp] theorem huntAgain_resetPin (s : State) (p : Port) : (huntAgain p s).resetPin = s.resetPin := by cases p <;> rfl
@[simp] theorem huntAgain_draws (s : State) (p : Port) : (huntAgain p s).draws = s.draws := by cases p <;> rfl
@[simp] theorem huntAgain_pending (s : State) (p : Port) : (huntAgain p s).pending = s.pending := by cases p <;> rfl

/-! ### The accessors after an update -/

@[simp] theorem State.setItem_tab (s : State) (i : ItemNo) (x : Item) (j : Slot) : (s.setItem i x).tab j = s.tab j := rfl
@[simp] theorem State.setStation_tab (s : State) (i : StationNo) (x : Station) (j : Slot) : (s.setStation i x).tab j = s.tab j := rfl
@[simp] theorem State.setPort_tab (s : State) (i : Lane) (x : PortEntry) (j : Slot) : (s.setPort i x).tab j = s.tab j := rfl
@[simp] theorem State.setShare_tab (s : State) (i : ShareNo) (x : ShareRecord) (j : Slot) : (s.setShare i x).tab j = s.tab j := rfl
@[simp] theorem State.setTab_item (s : State) (i : Slot) (x : Tab) (j : ItemNo) : (s.setTab i x).item j = s.item j := rfl
@[simp] theorem State.setStation_item (s : State) (i : StationNo) (x : Station) (j : ItemNo) : (s.setStation i x).item j = s.item j := rfl
@[simp] theorem State.setPort_item (s : State) (i : Lane) (x : PortEntry) (j : ItemNo) : (s.setPort i x).item j = s.item j := rfl
@[simp] theorem State.setShare_item (s : State) (i : ShareNo) (x : ShareRecord) (j : ItemNo) : (s.setShare i x).item j = s.item j := rfl
@[simp] theorem State.setTab_station (s : State) (i : Slot) (x : Tab) (j : StationNo) : (s.setTab i x).station j = s.station j := rfl
@[simp] theorem State.setItem_station (s : State) (i : ItemNo) (x : Item) (j : StationNo) : (s.setItem i x).station j = s.station j := rfl
@[simp] theorem State.setPort_station (s : State) (i : Lane) (x : PortEntry) (j : StationNo) : (s.setPort i x).station j = s.station j := rfl
@[simp] theorem State.setShare_station (s : State) (i : ShareNo) (x : ShareRecord) (j : StationNo) : (s.setShare i x).station j = s.station j := rfl
@[simp] theorem State.setTab_port (s : State) (i : Slot) (x : Tab) (j : Lane) : (s.setTab i x).port j = s.port j := rfl
@[simp] theorem State.setItem_port (s : State) (i : ItemNo) (x : Item) (j : Lane) : (s.setItem i x).port j = s.port j := rfl
@[simp] theorem State.setStation_port (s : State) (i : StationNo) (x : Station) (j : Lane) : (s.setStation i x).port j = s.port j := rfl
@[simp] theorem State.setShare_port (s : State) (i : ShareNo) (x : ShareRecord) (j : Lane) : (s.setShare i x).port j = s.port j := rfl

@[simp] theorem State.setTab_tab_self (s : State) (i : Slot) (x : Tab) : (s.setTab i x).tab i = x := get_set_self _ i x

theorem State.setTab_tab_ne (s : State) {i j : Slot} (x : Tab) (h : j ≠ i) : (s.setTab i x).tab j = s.tab j :=
  get_set_ne _ x h

theorem State.setTab_tab (s : State) (i j : Slot) (x : Tab) :
    (s.setTab i x).tab j = if j = i then x else s.tab j := by
  split
  · subst_vars; simp
  · exact s.setTab_tab_ne x ‹_›


@[simp] theorem State.setItem_item_self (s : State) (i : ItemNo) (x : Item) : (s.setItem i x).item i = x := get_set_self _ i x

theorem State.setItem_item_ne (s : State) {i j : ItemNo} (x : Item) (h : j ≠ i) : (s.setItem i x).item j = s.item j :=
  get_set_ne _ x h

theorem State.setItem_item (s : State) (i j : ItemNo) (x : Item) :
    (s.setItem i x).item j = if j = i then x else s.item j := by
  split
  · subst_vars; simp
  · exact s.setItem_item_ne x ‹_›


@[simp] theorem State.setStation_station_self (s : State) (i : StationNo) (x : Station) : (s.setStation i x).station i = x := get_set_self _ i x

theorem State.setStation_station_ne (s : State) {i j : StationNo} (x : Station) (h : j ≠ i) : (s.setStation i x).station j = s.station j :=
  get_set_ne _ x h

theorem State.setStation_station (s : State) (i j : StationNo) (x : Station) :
    (s.setStation i x).station j = if j = i then x else s.station j := by
  split
  · subst_vars; simp
  · exact s.setStation_station_ne x ‹_›


@[simp] theorem State.setPort_port_self (s : State) (i : Lane) (x : PortEntry) : (s.setPort i x).port i = x := get_set_self _ i x

theorem State.setPort_port_ne (s : State) {i j : Lane} (x : PortEntry) (h : j ≠ i) : (s.setPort i x).port j = s.port j :=
  get_set_ne _ x h

theorem State.setPort_port (s : State) (i j : Lane) (x : PortEntry) :
    (s.setPort i x).port j = if j = i then x else s.port j := by
  split
  · subst_vars; simp
  · exact s.setPort_port_ne x ‹_›

@[simp] theorem huntAgain_tab (s : State) (p : Port) (i : Slot) : (huntAgain p s).tab i = s.tab i := by cases p <;> rfl
@[simp] theorem huntAgain_item (s : State) (p : Port) (i : ItemNo) : (huntAgain p s).item i = s.item i := by cases p <;> rfl
@[simp] theorem huntAgain_station (s : State) (p : Port) (i : StationNo) : (huntAgain p s).station i = s.station i := by cases p <;> rfl

theorem huntAgain_port (s : State) (p : Port) (l : Lane) :
    (huntAgain p s).port l = if p = .lane l then { s.port l with receiver := .hunting } else s.port l := by
  cases p with
  | office => rfl
  | lane k =>
    have : (huntAgain (.lane k) s).port l = if l = k then { s.port k with receiver := .hunting } else s.port l :=
      State.setPort_port s k l _
    rw [this]
    by_cases h : l = k
    · subst h; simp
    · have h' : k ≠ l := fun e => h e.symm
      simp [h, h']

@[simp] theorem huntAgain_role (s : State) (p : Port) (l : Lane) : ((huntAgain p s).port l).role = (s.port l).role := by
  rw [huntAgain_port]; split <;> rfl

@[simp] theorem huntAgain_bound (s : State) (p : Port) (l : Lane) : ((huntAgain p s).port l).bound = (s.port l).bound := by
  rw [huntAgain_port]; split <;> rfl

@[simp] theorem huntAgain_findTab (s : State) (p : Port) (n : Nat) : (huntAgain p s).findTab n = s.findTab n := by
  cases p <;> rfl

end Sys2Proof.Machine
end

