-- ==== Sys2Proof/Laws/Events.lean ====
section
/-! SUPPORT. Events: every way of raising one is one operation, `State.raised`, and the notices of a step that raised events
are those of `State.told`. -/

namespace Sys2Proof.Machine

/-- The state with event kinds latched, port by port, and no notice sent yet. -/
def State.raised (r : Raised) (s : State) : State :=
  { s with
    ports := tableOf fun l => { s.port l with events := (s.port l).events ||| r (.lane l) }
    officeEvents := s.officeEvents ||| r .office }

@[simp] theorem raised_port (r : Raised) (s : State) (l : Lane) :
    (s.raised r).port l = { s.port l with events := (s.port l).events ||| r (.lane l) } := tableOf_get _ l

theorem raised_core (r : Raised) (s : State) :
    s.raised r = { s with ports := (s.raised r).ports, officeEvents := (s.raised r).officeEvents } := rfl

@[simp] theorem raised_tab (r : Raised) (s : State) (i : Slot) : (s.raised r).tab i = s.tab i := rfl

@[simp] theorem raised_item (r : Raised) (s : State) (i : ItemNo) : (s.raised r).item i = s.item i := rfl

@[simp] theorem raised_station (r : Raised) (s : State) (i : StationNo) : (s.raised r).station i = s.station i := rfl

@[simp] theorem raised_token (r : Raised) (s : State) : (s.raised r).token = s.token := rfl

@[simp] theorem raised_approvals (r : Raised) (s : State) : (s.raised r).approvals = s.approvals := rfl

@[simp] theorem raised_shares (r : Raised) (s : State) : (s.raised r).shares = s.shares := rfl

@[simp] theorem raised_pending (r : Raised) (s : State) : (s.raised r).pending = s.pending := rfl

@[simp] theorem raised_findTab (r : Raised) (s : State) (n : Nat) : (s.raised r).findTab n = s.findTab n := rfl

@[simp] theorem raised_railOf (r : Raised) (s : State) (i : StationNo) : (s.raised r).railOf i = s.railOf i := rfl

/-! ### The ways of raising -/

theorem raised_nobody (s : State) : s.raised nobody = s := by
  have hp : (s.raised nobody).ports = s.ports :=
    table_ext fun l => (raised_port nobody s l).trans (by simp [nobody, State.port])
  rw [raised_core, hp]
  simp [State.raised, nobody]

theorem raised_raised (a b : Raised) (s : State) : (s.raised a).raised b = s.raised (both a b) := by
  have hp : ((s.raised a).raised b).ports = (s.raised (both a b)).ports :=
    table_ext fun l => (raised_port b _ l).trans (by
      rw [raised_port]; exact ((raised_port (both a b) s l).trans (by simp [both, BitVec.or_assoc])).symm)
  rw [raised_core b, hp]
  simp [State.raised, both, BitVec.or_assoc]

theorem raiseLanes_eq (k : EventKind) (ls : List Lane) (s : State) : raiseLanes k ls s = s.raised (toLanes k ls) := by
  have hp : (raiseLanes k ls s).ports = (s.raised (toLanes k ls)).ports :=
    table_ext fun l => (tableOf_get _ l).trans (by
      refine Eq.trans ?_ (raised_port _ s l).symm
      by_cases h : l ∈ ls <;> simp [toLanes, PortEntry.latch, h])
  rw [raised_core, ← hp]
  simp [raiseLanes, State.raised, toLanes]

theorem raiseTills_eq (k : EventKind) (s : State) : raiseTills k s = s.raised (toTills k s) := by
  have hp : (raiseTills k s).ports = (s.raised (toTills k s)).ports :=
    table_ext fun l => (tableOf_get _ l).trans (by
      refine Eq.trans ?_ (raised_port _ s l).symm
      by_cases h : (s.port l).role = .till <;> simp [toTills, PortEntry.latch, h])
  rw [raised_core, ← hp]
  simp [raiseTills, State.raised, toTills]

theorem raiseOffice_eq (k : EventKind) (s : State) : raiseOffice k s = s.raised (toPort k .office) := by
  have hp : s.ports = (s.raised (toPort k .office)).ports :=
    table_ext fun l => by refine Eq.trans ?_ (raised_port _ s l).symm; simp [toPort, State.port]
  rw [raised_core, ← hp]
  simp [raiseOffice, State.raised, toPort]

theorem toLanes_one (k : EventKind) (l : Lane) : toLanes k [l] = toPort k (.lane l) := by
  funext p
  cases p <;> simp [toLanes, toPort]

theorem raisePort_eq (k : EventKind) (p : Port) (s : State) : raisePort k p s = s.raised (toPort k p) := by
  cases p with
  | lane l => rw [raisePort, raiseLanes_eq, toLanes_one]
  | office => exact raiseOffice_eq k s

theorem raiseOptional_eq (k : EventKind) (l : Option Lane) (s : State) :
    raiseOptional k l s = s.raised (toLanes k l.toList) := raiseLanes_eq k _ s

theorem touch_eq (i : Slot) (s : State) : touch i s = s.raised (toLanes .tabChanged (s.tab i).followers) :=
  raiseLanes_eq _ _ s

theorem announceQueue_eq (s : State) :
    announceQueue s = s.raised (if s.approvals = [] then nobody else toPort .approvalWaiting s.token) := by
  unfold announceQueue
  split
  · exact (raised_nobody s).symm
  · exact raisePort_eq _ _ s

/-! ### Raising commutes with the updates that touch no port -/

theorem setTab_raised (r : Raised) (s : State) (i : Slot) (t : Tab) : (s.raised r).setTab i t = (s.setTab i t).raised r := rfl

theorem setItem_raised (r : Raised) (s : State) (i : ItemNo) (it : Item) :
    (s.raised r).setItem i it = (s.setItem i it).raised r := rfl

theorem setStation_raised (r : Raised) (s : State) (i : StationNo) (x : Station) :
    (s.raised r).setStation i x = (s.setStation i x).raised r := rfl

theorem setShare_raised (r : Raised) (s : State) (j : ShareNo) (x : ShareRecord) :
    (s.raised r).setShare j x = (s.setShare j x).raised r := rfl

theorem giveToken_raised (r : Raised) (s : State) (p : Port) : giveToken p (s.raised r) = (giveToken p s).raised r := rfl

theorem modifyTab_raised (r : Raised) (s : State) (i : Slot) (f : Tab → Tab) :
    (s.raised r).modifyTab i f = (s.modifyTab i f).raised r := rfl

theorem modifyStation_raised (r : Raised) (s : State) (i : StationNo) (f : Station → Station) :
    (s.raised r).modifyStation i f = (s.modifyStation i f).raised r := rfl

theorem huntAgain_raised (r : Raised) (s : State) (p : Port) : huntAgain p (s.raised r) = (huntAgain p s).raised r := by
  cases p with
  | office => rfl
  | lane k =>
    have hp : (huntAgain (.lane k) (s.raised r)).ports = ((huntAgain (.lane k) s).raised r).ports :=
      table_ext fun l => by
        show (huntAgain (.lane k) (s.raised r)).port l = ((huntAgain (.lane k) s).raised r).port l
        rw [huntAgain_port, raised_port, raised_port, huntAgain_port]
        split <;> rfl
    exact congrArg (fun x => { (huntAgain (.lane k) s).raised r with ports := x }) hp

/-! ### Notices (R180) -/

theorem withNotice_eq (fresh : Bool) (before after : PortEntry) :
    withNotice fresh before after =
      { after with
        transmit := after.transmit
          ++ if after.notices && after.role ≠ .off && (fresh || before.pendingSet = 0) && after.pendingSet ≠ 0 then
            [.notice after.pendingSet]
          else [] } := by
  unfold withNotice
  split <;> simp

/-- The notice of an entry after a step that sent frames and raised events. -/
theorem withNotice_gains (e : PortEntry) (frames : List Frame) (r : EventSet) :
    withNotice false e { e with transmit := e.transmit ++ frames, events := e.events ||| r } = e.gains frames r :=
  withNotice_eq _ _ _

theorem withNotice_unchanged (e : PortEntry) : withNotice false e e = e := by
  unfold withNotice
  by_cases h : e.pendingSet = 0 <;> simp [h]

/-- A notice depends on the entry before the step through its pending set alone. -/
theorem withNotice_congr (fresh : Bool) (b b' a : PortEntry) (h : b.pendingSet = b'.pendingSet) :
    withNotice fresh b a = withNotice fresh b' a := by rw [withNotice_eq, withNotice_eq, h]

/-- The notices of a step that raised events and sent nothing: those of `State.told`. `before` is the state before the step. -/
theorem composeNotices_raised (r : Raised) (before s : State)
    (h : ∀ l, (before.port l).pendingSet = (s.port l).pendingSet) : composeNotices none before (s.raised r) = s.told r := by
  have hp : (composeNotices none before (s.raised r)).ports = (s.told r).ports :=
    table_ext fun l => (tableOf_get _ l).trans (by
      refine Eq.trans ?_ (tableOf_get _ l).symm
      rw [raised_port, withNotice_congr _ _ _ _ (h l)]
      simpa using withNotice_gains (s.port l) [] (r (.lane l)))
  exact congrArg (fun x => { s with ports := x, officeEvents := s.officeEvents ||| r .office }) hp

/-- A step in which no pending set changes sends no notice. -/
theorem composeNotices_unchanged (before s : State) (h : ∀ l, (before.port l).pendingSet = (s.port l).pendingSet) :
    composeNotices none before s = s := by
  have hp : (composeNotices none before s).ports = s.ports :=
    table_ext fun l => (tableOf_get _ l).trans (by
      rw [withNotice_congr _ _ _ _ (h l)]
      exact withNotice_unchanged (s.port l))
  exact congrArg (fun x => { s with ports := x }) hp

/-- What a step that no request causes answers, when its effect raises events and sends nothing. -/
theorem happen_raised (effect : State → State) (r : Raised) (s t : State) (hr : s.resetPin = false)
    (he : effect s = t.raised r) (hp : t.ports = s.ports) : happen effect s = .next (t.told r) := by
  simp only [happen, hr, he, Bool.false_eq_true, if_false, composeNotices_raised r s t fun l => by simp only [State.port, hp]]

end Sys2Proof.Machine
end

