-- ==== Sys2Proof/Laws/Requests.lean ====
section
/-! SUPPORT. What a received request can do: `serve` in each of its cases, and the form its answer takes. -/

namespace Sys2Proof.Machine

/-! ### A port that hunts again -/

@[simp] theorem huntAgain_pendingSet (s : State) (p : Port) (l : Lane) :
    ((huntAgain p s).port l).pendingSet = (s.port l).pendingSet := by
  rw [huntAgain_port]; split <;> rfl

@[simp] theorem huntAgain_awaitsReply (s : State) (p q : Port) : awaitsReply q (huntAgain p s) = awaitsReply q s := by
  cases q with
  | office => rfl
  | lane l => simp only [awaitsReply, huntAgain_port]; split <;> rfl

@[simp] theorem huntAgain_mayRequest (s : State) (p q : Port) (k : Kind) :
    mayRequest q k (huntAgain p s) = mayRequest q k s := by
  cases q with
  | office => rfl
  | lane l => simp only [mayRequest, huntAgain_role, huntAgain_bound]

/-- A frame dropped is `State.dropped` (R173). -/
theorem dropFrame_eq (p : Port) (s : State) : dropFrame p s = s.dropped p := by
  rw [dropFrame, raisePort_eq]
  exact composeNotices_raised _ s _ fun l => (huntAgain_pendingSet s p l).symm

/-! ### The reply -/

/-- Hunting again changes nothing that a reply on the same port does not change too. -/
theorem answered_huntAgain (p : Port) (tag code : Nat) (status : Status) (body : List Field) (r : Raised) (s : State) :
    (huntAgain p s).answered p tag code status body r = s.answered p tag code status body r := by
  cases p with
  | office => rfl
  | lane k =>
    have hp : ((huntAgain (.lane k) s).answered (.lane k) tag code status body r).ports
        = (s.answered (.lane k) tag code status body r).ports :=
      table_ext fun l => (tableOf_get _ l).trans (by
        refine Eq.trans ?_ (tableOf_get _ l).symm
        rw [huntAgain_port]
        by_cases h : Port.lane k = Port.lane l <;> simp [h])
    exact congrArg (fun x => { s.answered (.lane k) tag code status body r with ports := x }) hp

/-- The reply and the notices of a request whose answer raised events: `State.answered` (R167, R180). `u` is the state before
the request with its port hunting, `t` the state its block leaves. -/
theorem conclude_answer (p : Port) (tag : Nat) (k : Kind) (s t : State) (status : Status) (body : List Field) (r : Raised)
    (hp : t.ports = (huntAgain p s).ports) (ho : t.officeReceiver = (huntAgain p s).officeReceiver) :
    conclude p tag k none (huntAgain p s) (answer (t.raised r) status body)
      = t.answered p tag (kindCode k) status body r := by
  have hl (l : Lane) : t.port l = (huntAgain p s).port l := by simp only [State.port, hp]
  cases p with
  | office =>
    have hports : (conclude .office tag k none (huntAgain .office s) (answer (t.raised r) status body)).ports
        = (t.answered .office tag (kindCode k) status body r).ports :=
      table_ext fun l => (tableOf_get _ l).trans (by
        refine Eq.trans ?_ (tableOf_get _ l).symm
        have he : (deliver .office tag (kindCode k) (answer (t.raised r) status body)).port l
            = { t.port l with events := (t.port l).events ||| r (.lane l) } := raised_port r t l
        rw [he, ← hl l]
        simpa using withNotice_gains (t.port l) [] (r (.lane l)))
    have ho' : t.officeReceiver = .hunting := ho
    have := congrArg
      (fun x => { (conclude .office tag k none (huntAgain .office s) (answer (t.raised r) status body)) with ports := x })
      hports
    refine this.trans ?_
    simp [conclude, composeNotices, deliver, sendReply, sendFrame, answer, State.raised, State.answered, ho']
  | lane j =>
    let f : Frame := .reply tag (kindCode k + 0x80) status body
    have he (l : Lane) : (deliver (.lane j) tag (kindCode k) (answer (t.raised r) status body)).port l =
        if l = j then
          { t.port j with events := (t.port j).events ||| r (.lane j), transmit := (t.port j).transmit ++ [f] }
        else { t.port l with events := (t.port l).events ||| r (.lane l) } := by
      have h0 : (deliver (.lane j) tag (kindCode k) (answer (t.raised r) status body)).port l =
          if l = j then { (t.raised r).port j with transmit := ((t.raised r).port j).transmit ++ [f] }
          else (t.raised r).port l := State.setPort_port _ _ _ _
      rw [h0, raised_port, raised_port]
    have hports : (conclude (.lane j) tag k none (huntAgain (.lane j) s) (answer (t.raised r) status body)).ports
        = (t.answered (.lane j) tag (kindCode k) status body r).ports :=
      table_ext fun l => (tableOf_get _ l).trans (by
        refine Eq.trans ?_ (tableOf_get _ l).symm
        rw [he l, ← hl l]
        by_cases h : l = j
        · subst h
          have hh : (t.port l).receiver = .hunting := by rw [hl l, huntAgain_port]; simp
          have hx : ({ t.port l with receiver := .hunting } : PortEntry) = t.port l := by rw [← hh]
          rw [if_pos rfl, if_pos rfl, hx]
          simpa using withNotice_gains (t.port l) [f] (r (.lane l))
        · have h' : ¬(Port.lane j = Port.lane l) := fun e => h (by injection e with e; exact e.symm)
          rw [if_neg h, if_neg h']
          simpa using withNotice_gains (t.port l) [] (r (.lane l)))
    have := congrArg
      (fun x => { (conclude (.lane j) tag k none (huntAgain (.lane j) s) (answer (t.raised r) status body)) with ports := x })
      hports
    refine this.trans ?_
    simp [conclude, composeNotices, deliver, sendReply, sendFrame, answer, State.raised, State.answered, State.setPort]

/-! ### The office's byte transfers (R175) -/

theorem clockReply_eq (n : Nat) (s : State) : clockReply n s = s.clockedOut n := rfl

theorem clockFrame_eq (p : Port) (n : Nat) (s : State) : clockFrame p n s = s.frameClocked p n := by
  cases p with
  | lane l => rfl
  | office =>
    unfold clockFrame State.frameClocked State.startCounted
    cases s.officeReceiver <;> rfl

/-- With an empty slot byte transfers change nothing. -/
theorem clockedOut_empty (n : Nat) {s : State} (h : s.replySlot = none) : s.clockedOut n = s := by
  unfold State.clockedOut
  rw [h]

/-- A frame that finds room for its reply clocks nothing out. -/
theorem frameClocked_room {p : Port} (n : Nat) {s : State} (h : congested p s = false) : s.frameClocked p n = s := by
  cases p with
  | lane l => rfl
  | office => exact clockedOut_empty _ (by simpa [congested] using h)

/-- What byte transfers can do: nothing to an empty slot, the position moved on within the reply, or the slot emptied (R175). -/
theorem clockedOut_cases (n : Nat) (s : State) :
    (s.replySlot = none ∧ s.clockedOut n = s)
      ∨ ∃ f, s.replySlot = some f
        ∧ (s.replyPosition + n < (frameBytes f).length ∧ s.clockedOut n = { s with replyPosition := s.replyPosition + n }
          ∨ (frameBytes f).length ≤ s.replyPosition + n
            ∧ s.clockedOut n = { s with replySlot := none, replyPosition := 0 }) := by
  unfold State.clockedOut
  split
  · exact .inl ⟨‹_›, rfl⟩
  · refine .inr ⟨_, ‹_›, ?_⟩
    split
    · exact .inl ⟨‹_›, rfl⟩
    · exact .inr ⟨Nat.le_of_not_lt ‹_›, rfl⟩

/-! ### The cases of a request -/

/-- A frame outside reset: its bytes clocked, and then dropped or examined (R167, R173, R175). -/
theorem receive_eq {p : Port} {n : Nat} {s : State} (examine : State → State) (hr : s.resetPin = false) :
    receive p n s examine =
      if overdue p (s.frameClocked p n) || congested p (s.frameClocked p n) then (s.frameClocked p n).dropped p
      else examine (huntAgain p (s.frameClocked p n)) := by
  simp only [receive, hr, clockFrame_eq, dropFrame_eq]
  rfl

/-- A frame that is taken. -/
theorem receive_taken {p : Port} {n : Nat} {s : State} (examine : State → State) (hr : s.resetPin = false)
    (ho : overdue p s = false) (hc : congested p s = false) : receive p n s examine = examine (huntAgain p s) := by
  simp [receive_eq _ hr, frameClocked_room n hc, ho, hc]

/-- An office frame that comes while a reply waits (R175): with a part of the reply left it is dropped, and otherwise it is taken
as if the slot had been empty. -/
theorem receive_office {n : Nat} {s : State} {f : Frame} (examine : State → State) (hr : s.resetPin = false)
    (hf : s.replySlot = some f) :
    receive .office n s examine =
      if s.replyPosition + (n - s.startCounted) < (frameBytes f).length then
        State.dropped .office { s with replyPosition := s.replyPosition + (n - s.startCounted) }
      else receive .office n { s with replySlot := none, replyPosition := 0 } examine := by
  have hs : s.frameClocked .office n = s.clockedOut (n - s.startCounted) := rfl
  rcases clockedOut_cases (n - s.startCounted) s with ⟨e, _⟩ | ⟨g, e, ⟨hl, e'⟩ | ⟨hl, e'⟩⟩
  · rw [hf] at e; cases e
  · cases hf.symm.trans e
    rw [receive_eq _ hr, hs, e', if_pos hl]
    exact if_pos (by simp [congested, hf])
  · cases hf.symm.trans e
    rw [receive_eq _ hr, hs, e', if_neg (Nat.not_lt.mpr hl)]
    exact (if_neg (by simp [overdue, congested])).trans
      (receive_taken (s := { s with replySlot := none, replyPosition := 0 }) examine hr rfl rfl).symm

/-- A request that reaches its block. -/
theorem serve_taken {α : Type} {k : Kind} {c : Codec α} {p : Port} {tag : Nat} {fields : α} {s : State}
    (block : α → State → Answer) (hr : s.resetPin = false) (ho : overdue p s = false) (hc : congested p s = false)
    (ht : tag ≠ 0) (ha : awaitsReply p s = false) (hm : mayRequest p k s = true) :
    serve k c p tag (.fields fields) block s
      = .next (conclude p tag k none (huntAgain p s) (block fields (huntAgain p s))) := by
  simp [serve, receive_taken _ hr ho hc, handle, ht, ha, hm]

/-- The conditions that a lane's readiness stands for. -/
theorem laneReady_spec {l : Lane} {tag : Nat} {s : State} (h : laneReady l tag s = true) :
    s.resetPin = false ∧ tag ≠ 0 ∧ overdue (.lane l) s = false ∧ congested (.lane l) s = false
      ∧ awaitsReply (.lane l) s = false := by
  simp only [laneReady, Bool.and_eq_true, Bool.not_eq_true', decide_eq_true_eq] at h
  obtain ⟨⟨⟨⟨h1, h2⟩, h3⟩, h4⟩, h5⟩ := h
  refine ⟨h1, h2, h3, ?_, ?_⟩
  · have hg : ¬(Config.transmitGuard ≤ (s.port l).transmit.length) := fun e => absurd h4 (Nat.not_lt.mpr e)
    simp [congested, hg]
  · simpa [awaitsReply] using h5

theorem officeReady_spec {tag : Nat} {s : State} (h : officeReady tag s = true) :
    s.resetPin = false ∧ tag ≠ 0 ∧ overdue .office s = false ∧ congested .office s = false
      ∧ awaitsReply .office s = false := by
  simp only [officeReady, Bool.and_eq_true, Bool.not_eq_true', decide_eq_true_eq] at h
  obtain ⟨⟨h1, h2⟩, h3⟩ := h
  exact ⟨h1, h2, rfl, by simpa [congested] using h3, rfl⟩

theorem serve_till {α : Type} {k : Kind} {c : Codec α} {l : Lane} {tag : Nat} {fields : α} {s : State} (block : α → State → Answer)
    (h : tillReady l tag s = true) (hk : (senders k).till = true) :
    serve k c (.lane l) tag (.fields fields) block s
      = .next (conclude (.lane l) tag k none (huntAgain (.lane l) s) (block fields (huntAgain (.lane l) s))) := by
  simp only [tillReady, Bool.and_eq_true, decide_eq_true_eq] at h
  obtain ⟨hr, ht, ho, hc, ha⟩ := laneReady_spec h.1
  exact serve_taken block hr ho hc ht ha (by simp [mayRequest, h.2, hk])

theorem serve_station {α : Type} {k : Kind} {c : Codec α} {l : Lane} {st : StationNo} {tag : Nat} {fields : α} {s : State}
    (block : α → State → Answer) (h : stationReady l st tag s = true) (hk : (senders k).boundStation = true) :
    serve k c (.lane l) tag (.fields fields) block s
      = .next (conclude (.lane l) tag k none (huntAgain (.lane l) s) (block fields (huntAgain (.lane l) s))) := by
  simp only [stationReady, Bool.and_eq_true, decide_eq_true_eq] at h
  obtain ⟨hr, ht, ho, hc, ha⟩ := laneReady_spec h.1.1
  exact serve_taken block hr ho hc ht ha (by simp [mayRequest, h.1.2, h.2, hk])

theorem serve_office {α : Type} {k : Kind} {c : Codec α} {tag : Nat} {fields : α} {s : State} (block : α → State → Answer)
    (h : officeReady tag s = true) (hk : (senders k).office = true) :
    serve k c .office tag (.fields fields) block s
      = .next (conclude .office tag k none (huntAgain .office s) (block fields (huntAgain .office s))) := by
  obtain ⟨hr, ht, ho, hc, ha⟩ := officeReady_spec h
  exact serve_taken block hr ho hc ht ha (by simp [mayRequest, hk])

/-! ### What a step leaves outside the port interface -/

/-- Two states that differ in nothing but ports and the office's events, slot and receiver. -/
def State.samePart (s t : State) : Prop :=
  t = { s with
    ports := t.ports, officeEvents := t.officeEvents, replySlot := t.replySlot, replyPosition := t.replyPosition
    officeReceiver := t.officeReceiver, draws := t.draws }

theorem State.samePart_refl (s : State) : s.samePart s := rfl

theorem State.samePart_trans {s t u : State} (h : s.samePart t) (h' : t.samePart u) : s.samePart u := by
  unfold State.samePart at *
  rw [h] at h'
  exact h'

theorem samePart_raised (r : Raised) (s : State) : s.samePart (s.raised r) := rfl

theorem samePart_huntAgain (p : Port) (s : State) : s.samePart (huntAgain p s) := by cases p <;> rfl

theorem samePart_clockFrame (p : Port) (n : Nat) (s : State) : s.samePart (clockFrame p n s) := by
  rw [clockFrame_eq]
  cases p with
  | lane l => rfl
  | office =>
    rcases clockedOut_cases (n - s.startCounted) s with ⟨_, h⟩ | ⟨_, _, ⟨_, h⟩ | ⟨_, h⟩⟩ <;>
      exact (congrArg s.samePart h).mpr rfl

theorem samePart_composeNotices (fresh : Option Lane) (before s : State) : s.samePart (composeNotices fresh before s) := rfl

theorem samePart_sendReply (p : Port) (tag code : Nat) (r : Reply) (s : State) : s.samePart (sendReply p tag code r s) := by
  cases p <;> rfl

theorem samePart_dropFrame (p : Port) (s : State) : s.samePart (dropFrame p s) := by
  rw [dropFrame_eq]
  cases p <;> rfl

theorem samePart_deliver (p : Port) (tag code : Nat) (a : Answer) : a.1.samePart (deliver p tag code a) := by
  unfold deliver
  split
  · exact samePart_sendReply _ _ _ _ _
  · rfl

/-- Everything a request can do outside the port interface: nothing, or what its block does of its fields. -/
theorem serve_cases {α : Type} (k : Kind) (c : Codec α) (p : Port) (tag : Nat) (body : Body α) (block : α → State → Answer)
    (s : State) :
    ∃ t, serve k c p tag body block s = .next t
      ∧ (s.samePart t ∨ ∃ fields u, body = .fields fields ∧ u = huntAgain p (clockFrame p (requestSize c body) s)
        ∧ s.samePart u ∧ (block fields u).1.samePart t) := by
  refine ⟨_, rfl, ?_⟩
  have hc := samePart_clockFrame p (requestSize c body) s
  have hh := State.samePart_trans hc (samePart_huntAgain p _)
  unfold receive
  split
  · exact .inl rfl
  dsimp only
  split
  · exact .inl (State.samePart_trans hc (samePart_dropFrame p _))
  unfold handle
  split
  · exact .inl (State.samePart_trans hh (samePart_dropFrame p _))
  split
  · exact .inl (State.samePart_trans hh (samePart_sendReply _ _ _ _ _))
  split
  · exact .inl (State.samePart_trans hh (samePart_sendReply _ _ _ _ _))
  split
  · exact .inr ⟨_, _, rfl, rfl, hh, State.samePart_trans (samePart_deliver _ _ _ _) (samePart_composeNotices _ _ _)⟩
  · exact .inl (State.samePart_trans hh (samePart_sendReply _ _ _ _ _))

/-- Everything a step that no request causes can do outside the port interface. -/
theorem happen_cases (effect : State → State) (s : State) :
    ∃ t, happen effect s = .next t ∧ (s.samePart t ∨ (effect s).samePart t) := by
  refine ⟨_, rfl, ?_⟩
  split
  · exact .inl rfl
  · exact .inr (samePart_composeNotices _ _ _)

/-- An invariant that no command breaks and that does not read the queue is kept by every step. -/
theorem kept_of_exec {inv : State → Prop} (hq : ∀ s q, inv s → inv { s with pending := q })
    (he : ∀ c s t, inv s → exec c s = .next t → inv t) : Kept inv := by
  intro s t hs ht
  unfold step at ht
  split at ht
  · injection ht with e
    exact e ▸ hs
  · exact he _ _ _ (hq _ _ hs) ht

end Sys2Proof.Machine
end

