-- ==== Sys2Proof/Laws/Operations.lean ====
section
/-! SUPPORT. What the shared operations over tabs, lines, items, stations, tickets, approvals and shares can do: one lemma
each, to be cited in place of unfolding. -/

namespace Sys2Proof.Machine

/-! ### Tabs -/

theorem State.setTab_same (s : State) (i : Slot) : s.setTab i (s.tab i) = s := by
  have : s.tabs.set i (s.tabs.get i) = s.tabs := table_ext fun j => by
    by_cases h : j = i
    · subst h; simp
    · exact get_set_ne _ _ h
  simp only [State.setTab, State.tab, this]

theorem State.setTab_setTab (s : State) (i : Slot) (t u : Tab) : (s.setTab i t).setTab i u = s.setTab i u := by
  have : (s.tabs.set i t).set i u = s.tabs.set i u := table_ext fun j => by
    by_cases h : j = i
    · subst h; simp
    · rw [get_set_ne _ _ h, get_set_ne _ _ h, get_set_ne _ _ h]
  simp only [State.setTab, this]

/-- The slot that a tab number finds bears that number in range (R24). -/
theorem findTab_some {s : State} {n : Nat} {i : Slot} (h : s.findTab n = some i) :
    1 ≤ n ∧ n ≤ 9999 ∧ (s.tab i).state ≠ .free ∧ (s.tab i).number = n := by
  unfold State.findTab at h
  split at h
  · have hb := List.find?_some h
    simp only [State.bears, Bool.and_eq_true, decide_eq_true_eq] at hb
    exact ⟨by omega, by rename_i h0; exact h0.2, hb.1, hb.2⟩
  · cases h

/-- A number in range that finds no slot is borne by none (R24). -/
theorem findTab_none {s : State} {n : Nat} (h : s.findTab n = none) (h1 : 1 ≤ n) (h2 : n ≤ 9999) (i : Slot) :
    (s.tab i).state = .free ∨ (s.tab i).number ≠ n := by
  unfold State.findTab at h
  rw [if_pos ⟨h1, h2⟩, List.find?_eq_none] at h
  have hb := h i (List.mem_finRange i)
  simp only [State.bears, Bool.and_eq_true, decide_eq_true_eq, not_and] at hb
  by_cases hf : (s.tab i).state = .free
  · exact .inl hf
  · exact .inr (hb hf)

/-- The settle claim restarted is the tab `named` (R161). -/
theorem restartClaim_eq (p : Port) (i : Slot) (s : State) : restartClaim p i s = s.setTab i ((s.tab i).named p) := by
  unfold restartClaim Tab.named
  split
  · rfl
  · exact (s.setTab_same i).symm

/-- A request that names a tab: NO_TAB, or its continuation with the claim restarted (R24, R161). -/
theorem withTab_eq (p : Port) (n : Nat) (s : State) (k : Slot → State → Answer) (missing : List Field) :
    withTab p n s k missing = match s.findTab n with
      | none => answer s .noTab missing
      | some i => k i (s.setTab i ((s.tab i).named p)) := by
  unfold withTab
  split <;> simp [*, restartClaim_eq]

@[simp] theorem Tab.named_lines (p : Port) (t : Tab) : (t.named p).lines = t.lines := by
  unfold Tab.named; split <;> rfl

@[simp] theorem Tab.named_base (p : Port) (t : Tab) : (t.named p).base = t.base := by
  unfold Tab.named; split <;> rfl

@[simp] theorem Tab.named_state (p : Port) (t : Tab) : (t.named p).state = t.state := by
  unfold Tab.named; split <;> rfl

@[simp] theorem Tab.named_number (p : Port) (t : Tab) : (t.named p).number = t.number := by
  unfold Tab.named; split <;> rfl

@[simp] theorem Tab.named_owner (p : Port) (t : Tab) : (t.named p).owner = t.owner := by
  unfold Tab.named; split <;> rfl

@[simp] theorem Tab.named_pin (p : Port) (t : Tab) : (t.named p).pin = t.pin := by
  unfold Tab.named; split <;> rfl

@[simp] theorem Tab.named_unlocked (p : Port) (t : Tab) : (t.named p).unlocked = t.unlocked := by
  unfold Tab.named; split <;> rfl

@[simp] theorem Tab.named_followers (p : Port) (t : Tab) : (t.named p).followers = t.followers := by
  unfold Tab.named; split <;> rfl

@[simp] theorem Tab.named_split (p : Port) (t : Tab) : (t.named p).split = t.split := by
  unfold Tab.named; split <;> rfl

@[simp] theorem Tab.named_live (p : Port) (t : Tab) : (t.named p).live = t.live := by
  unfold Tab.named; split <;> rfl

@[simp] theorem Tab.named_wrongTries (p : Port) (t : Tab) : (t.named p).wrongTries = t.wrongTries := by
  unfold Tab.named; split <;> rfl

/-! ### Numbers from a counter -/

theorem firstUnused_self {used : Nat → Bool} {top fuel n : Nat} (h : used n = false) : firstUnused used top fuel n = n := by
  cases fuel <;> simp [firstUnused, h]

/-- The number taken stays in 1 to `top`. -/
theorem firstUnused_range (used : Nat → Bool) {top n : Nat} (fuel : Nat) (h1 : 1 ≤ n) (h2 : n ≤ top) :
    1 ≤ firstUnused used top fuel n ∧ firstUnused used top fuel n ≤ top := by
  induction fuel generalizing n with
  | zero => exact ⟨h1, h2⟩
  | succ fuel ih =>
    unfold firstUnused
    split
    · refine ih ?_ ?_ <;> unfold nextNumber <;> split <;> omega
    · exact ⟨h1, h2⟩

/-- The search from a counter finds the number that comes first (R25, R66, R118). -/
theorem firstUnused_first {used : Nat → Bool} {top start n : Nat} (h1 : 1 ≤ start) (h2 : start ≤ top)
    (h : FirstFrom top (fun m => used m = true) start n) : firstUnused used top top start = n := by
  obtain ⟨k, hk, hn, hu, hj⟩ := h
  simp only [Bool.not_eq_true] at hu
  suffices ∀ fuel, k < fuel → firstUnused used top fuel start = n from this top hk
  clear hk
  intro fuel hk
  induction k generalizing start fuel with
  | zero =>
    rw [Nat.add_zero, Nat.mod_eq_of_lt (by omega)] at hn
    have : n = start := by omega
    subst this
    exact firstUnused_self hu
  | succ k ih =>
    obtain ⟨fuel, rfl⟩ : ∃ m, fuel = m + 1 := ⟨fuel - 1, by omega⟩
    have h0 : used start = true := by
      have := hj 0 (by omega)
      rwa [Nat.add_zero, Nat.mod_eq_of_lt (by omega), Nat.sub_add_cancel h1] at this
    have hs (j : Nat) : (nextNumber top start - 1 + j) % top + 1 = (start - 1 + (j + 1)) % top + 1 := by
      unfold nextNumber
      split
      · congr 2; omega
      · have : start = top := by omega
        subst this
        have : start - 1 + (j + 1) = j + start := by omega
        rw [this, Nat.add_mod_right, Nat.sub_self, Nat.zero_add]
    have hr : 1 ≤ nextNumber top start ∧ nextNumber top start ≤ top := by
      unfold nextNumber; split <;> omega
    rw [firstUnused, if_pos h0]
    refine ih hr.1 hr.2 ?_ ?_ fuel (by omega)
    · rw [hs]; exact hn
    · intro j hjk; rw [hs]; exact hj _ (by omega)

/-! ### Lines and what a tab owes -/

theorem line?_eq {t : Tab} {n : Nat} {l : Line} : t.line? n = some l ↔ 1 ≤ n ∧ t.lines[n - 1]? = some l := by
  unfold Tab.line?
  split
  · simp; omega
  · simp; omega

/-- What the lines of a tab owe, as a sum over all of them. -/
theorem Tab.owed_eq (t : Tab) : t.owed = (t.lines.map fun l => if l.state = .voided then 0 else l.amount).sum := by
  unfold Tab.owed
  induction t.lines with
  | nil => rfl
  | cons l ls ih =>
    by_cases h : l.state = .voided
    · simpa [h] using ih
    · simpa [h] using ih

theorem sum_set {f : Line → Nat} {ls : List Line} {k : Nat} {x : Line} (h : ls[k]? = some x) (y : Line) :
    ((ls.set k y).map f).sum + f x = (ls.map f).sum + f y := by
  induction ls generalizing k with
  | nil => simp at h
  | cons l ls ih =>
    cases k with
    | zero =>
      simp only [List.getElem?_cons_zero, Option.some.injEq] at h
      subst h
      simp only [List.set_cons_zero, List.map_cons, List.sum_cons]
      omega
    | succ k =>
      have := ih (k := k) (by simpa using h)
      simp only [List.set_cons_succ, List.map_cons, List.sum_cons]
      omega

/-- Replacing a line moves what the tab owes by the difference of the two amounts; a VOIDED line counts 0. -/
theorem Tab.owed_setLine {t : Tab} {n : Nat} {x : Line} (h : t.line? n = some x) (y : Line) :
    (t.setLine n y).owed + (if x.state = .voided then 0 else x.amount)
      = t.owed + if y.state = .voided then 0 else y.amount := by
  rw [Tab.owed_eq, Tab.owed_eq]
  exact sum_set (line?_eq.mp h).2 y

theorem Tab.owed_append (t : Tab) (l : Line) :
    ({ t with lines := t.lines ++ [l] } : Tab).owed = t.owed + if l.state = .voided then 0 else l.amount := by
  rw [Tab.owed_eq, Tab.owed_eq]
  simp

/-! ### Items (R11 to R17) -/

theorem updateItem_eq (i : ItemNo) (it : Item) (s : State) :
    updateItem i it s =
      (s.setItem i it).raised (if availabilityChanged (s.item i) it then toTills .availabilityChanged s else nobody) := by
  unfold updateItem
  split
  · exact raiseTills_eq _ _
  · exact (raised_nobody _).symm

theorem Item.sound_reserve {it : Item} {q : Nat} (h : it.sound = true) (hq : q ≤ it.room) : (it.reserve q).sound = true := by
  unfold Item.sound Item.room Item.reserve at *
  cases hm : it.mode <;> simp_all [Config.maxCount] <;> omega

theorem Item.sound_release {it : Item} (q : Nat) (h : it.sound = true) : (it.release q).sound = true := by
  unfold Item.sound Item.release at *
  cases hm : it.mode <;> simp_all <;> omega

theorem Item.sound_consume {it : Item} (q : Nat) (h : it.sound = true) : (it.consume q).sound = true := by
  unfold Item.sound Item.consume at *
  cases hm : it.mode <;> simp_all <;> omega

theorem Item.sound_restore {it : Item} (q : Nat) (h : it.sound = true) : (it.restore q).sound = true := by
  unfold Item.sound Item.restore at *
  cases hm : it.mode
  · simp_all [Config.maxCount]
    omega
  · simp_all

/-! ### Stations and tickets -/

theorem recomputeRail_eq (i : StationNo) (s : State) : recomputeRail i s = (s.withRail i).raised (railRaised i s) := by
  unfold recomputeRail railRaised
  by_cases h : s.railOf i = (s.station i).rail
  · have hw : s.withRail i = s := by
      have : s.stations.set i (s.stations.get i) = s.stations := table_ext fun j => by
        by_cases h : j = i
        · subst h; simp
        · exact get_set_ne _ _ h
      simp only [State.withRail, h, State.station, this]
    rw [if_pos h, if_pos h, raised_nobody, hw]
  · rw [if_neg h, if_neg h]
    exact raiseOptional_eq _ _ _

/-- The live ticket that a number finds stands where it says (R63). -/
theorem findLive_some {s : State} {n : Nat} {i : StationNo} {place : TicketState} {t : Ticket}
    (h : s.findLive n = some (i, place, t)) : t.number = n ∧ (place, t) ∈ (s.station i).tickets := by
  unfold State.findLive at h
  obtain ⟨j, -, hj⟩ := List.exists_of_findSome?_eq_some h
  simp only [Option.map_eq_some_iff, Prod.mk.injEq] at hj
  obtain ⟨q, hq, rfl, rfl, rfl⟩ := hj
  exact ⟨by simpa using List.find?_some hq, List.mem_of_find?_eq_some hq⟩

theorem mem_tickets {x : Station} {place : TicketState} {t : Ticket} :
    (place, t) ∈ x.tickets ↔
      (place = .queued ∧ t ∈ x.queue) ∨ (place = .inWork ∧ x.inWork = some t) ∨ (place = .setAside ∧ t ∈ x.stack) := by
  simp only [Station.tickets, List.mem_append, List.mem_map, Prod.mk.injEq, Option.mem_toList]
  constructor
  · rintro ((⟨y, hy, rfl, rfl⟩ | ⟨y, hy, rfl, rfl⟩) | ⟨y, hy, rfl, rfl⟩)
    · exact .inl ⟨rfl, hy⟩
    · exact .inr (.inl ⟨rfl, hy⟩)
    · exact .inr (.inr ⟨rfl, hy⟩)
  · rintro (⟨rfl, h⟩ | ⟨rfl, h⟩ | ⟨rfl, h⟩)
    · exact .inl (.inl ⟨t, h, rfl, rfl⟩)
    · exact .inl (.inr ⟨t, h, rfl, rfl⟩)
    · exact .inr ⟨t, h, rfl, rfl⟩

/-! ### Approvals -/

/-- An entry ended: out of the queue, its outcome at the end of the requester's list, APPROVAL_DONE raised (R116, R129). -/
theorem closeEntry_eq (v : Verdict) (s : State) (e : Entry) :
    closeEntry v s e =
      State.raised (toPort .approvalDone (.lane e.requester))
        { s with
          approvals := s.approvals.filter fun x => x.number ≠ e.number
          results := s.results.set e.requester
            (pushResult { number := e.number, ask := e.ask, tab := e.tab, verdict := v, decidedAt := s.clock }
              (s.resultsOf e.requester)) } := by
  unfold closeEntry recordResult
  rw [raiseLanes_eq, toLanes_one]
  rfl

/-- Entries ended one after another leave tabs, items, stations and shares as they are. -/
theorem closeEntries_frame (v : Verdict) (es : List Entry) (s : State) :
    (es.foldl (closeEntry v) s).tabs = s.tabs ∧ (es.foldl (closeEntry v) s).items = s.items
      ∧ (es.foldl (closeEntry v) s).stations = s.stations ∧ (es.foldl (closeEntry v) s).shares = s.shares
      ∧ (es.foldl (closeEntry v) s).token = s.token := by
  induction es generalizing s with
  | nil => exact ⟨rfl, rfl, rfl, rfl, rfl⟩
  | cons e es ih =>
    obtain ⟨h1, h2, h3, h4, h5⟩ := ih (closeEntry v s e)
    rw [closeEntry_eq] at h1 h2 h3 h4 h5
    rw [List.foldl_cons, closeEntry_eq]
    exact ⟨h1, h2, h3, h4, h5⟩

/-- With no entry waiting there is none to end. -/
theorem endStale_nil (tab : Nat) (which : Ask → Bool) {s : State} (h : s.approvals = []) : endStale tab which s = s := by
  simp [endStale, h]

/-- A result joined first and then more are all joined at once (R129). -/
theorem joined_cons (old : List Result) (r : Result) (more : List Result) :
    joined (pushResult r old) more = joined old (r :: more) := by
  unfold joined pushResult
  by_cases h : more = []
  · subst h; simp [Config.resultSize]
  · rw [if_neg h, if_neg (by simp)]
    simp only [Config.resultSize]
    rw [show old ++ r :: more = (old ++ [r]) ++ more by simp]
    generalize old ++ [r] = xs
    have hm : 1 ≤ more.length := List.length_pos_iff.mpr h
    rw [← List.drop_append_of_le_length (by omega), List.drop_drop]
    congr 1
    simp only [List.length_drop, List.length_append]
    omega

/-- An entry ended before others is the first of those ended together (R116, R129). -/
theorem ended_cons (v : Verdict) (e : Entry) (es : List Entry) (s : State)
    (ha : ∀ x ∈ s.approvals, x.number = e.number ↔ x = e) :
    State.ended es v
        { s with
          approvals := s.approvals.filter fun x => x.number ≠ e.number
          results := s.results.set e.requester
            (pushResult { number := e.number, ask := e.ask, tab := e.tab, verdict := v, decidedAt := s.clock }
              (s.resultsOf e.requester)) }
      = State.ended (e :: es) v s := by
  have h : (s.approvals.filter fun x => x.number ≠ e.number).filter (fun x => x ∉ es)
      = s.approvals.filter fun x => x ∉ e :: es := by
    rw [List.filter_filter]
    exact List.filter_congr fun x hx => by simp [ha x hx, Bool.and_comm]
  unfold State.ended
  simp only [h]
  refine congrArg (fun rs => { s with approvals := s.approvals.filter fun x => x ∉ e :: es, results := rs }) ?_
  refine table_ext fun l => ?_
  rw [tableOf_get, tableOf_get]
  by_cases hl : e.requester = l
  · subst hl
    rw [List.filter_cons_of_pos (by simp), List.map_cons, ← joined_cons]
    exact congrArg (fun old => joined old _) (get_set_self s.results e.requester _)
  · rw [List.filter_cons_of_neg (by simp [hl])]
    exact congrArg (fun old => joined old _) (get_set_ne s.results _ fun h => hl h.symm)

/-- APPROVAL_DONE raised to requesters one after another is raised to all of them (R129). -/
theorem toRequesters_cons (e : Entry) (es : List Entry) :
    both (toPort .approvalDone (.lane e.requester)) (toRequesters es) = toRequesters (e :: es) := by
  funext p
  cases p with
  | office => simp [both, toPort, toRequesters, toLanes]
  | lane l =>
    by_cases h : l = e.requester
    · subst h
      by_cases h : ∃ a ∈ es, a.requester = e.requester <;> simp [both, toPort, toRequesters, toLanes, h]
    · simp [both, toPort, toRequesters, toLanes, h]

/-- Entries with numbers of their own ended one after another are ended together (R116, R129). -/
theorem closeEntries_eq (v : Verdict) (gone : List Entry) (s : State) (hn : (gone.map Entry.number).Nodup)
    (hg : ∀ e ∈ gone, e ∈ s.approvals) (hs : (s.approvals.map Entry.number).Nodup) :
    gone.foldl (closeEntry v) s = (State.ended gone v s).raised (toRequesters gone) := by
  induction gone generalizing s with
  | nil =>
    have hr : State.ended [] v s = s := by
      have : tableOf (fun l => joined (s.resultsOf l) []) = s.results := table_ext fun l => tableOf_get _ l
      simp [State.ended, this]
    rw [hr]
    exact (raised_nobody s).symm
  | cons e es ih =>
    rw [List.map_cons, List.nodup_cons] at hn
    have ha : ∀ x ∈ s.approvals, x.number = e.number ↔ x = e := fun x hx =>
      ⟨List.inj_on_of_nodup_map hs hx (hg e (by simp)), fun h => h ▸ rfl⟩
    rw [List.foldl_cons, ih _ hn.2, closeEntry_eq, ← ended_cons v e es s ha, ← toRequesters_cons, ← raised_raised]
    · rfl
    · intro x hx
      rw [closeEntry_eq]
      have : x.number ≠ e.number := fun h => hn.1 (h ▸ List.mem_map_of_mem hx)
      simp [hg x (by simp [hx]), this]
    · rw [closeEntry_eq]
      exact hs.sublist (List.Sublist.map _ List.filter_sublist)

/-- The entries of a tab ended STALE by a release, a close or a tab becoming FREE (R23, R128, R159). -/
theorem endStale_eq (tab : Nat) (which : Ask → Bool) (s : State) (hs : (s.approvals.map Entry.number).Nodup) :
    (let gone := s.approvals.filter fun e => e.tab = tab && which e.ask
     endStale tab which s = (State.ended gone .stale s).raised (toRequesters gone)) :=
  closeEntries_eq .stale _ s (hs.sublist (List.Sublist.map _ List.filter_sublist)) (fun _ h => (List.mem_filter.mp h).1) hs

/-- A request that needs the supervisor does one of three things (R117). -/
theorem supervise_cases (l : Lane) (i : Slot) (ask : Ask) (reason : Nat) (s : State) (applied full : Answer)
    (queuedBody : Nat → List Field) :
    (s.token = .lane l ∧ supervise l i ask reason s applied full queuedBody = applied)
      ∨ (s.token ≠ .lane l ∧ 16 ≤ s.approvals.length ∧ supervise l i ask reason s applied full queuedBody = full)
      ∨ (s.token ≠ .lane l ∧ s.approvals.length < 16
        ∧ supervise l i ask reason s applied full queuedBody
          = answer (queueEntry l i ask reason s) .queued (queuedBody s.nextApproval)) := by
  unfold supervise
  by_cases h : s.token = .lane l
  · exact .inl ⟨h, by simp [State.holds, h]⟩
  · by_cases hf : Config.approvalSize ≤ s.approvals.length
    · exact .inr (.inl ⟨h, hf, by simp [State.holds, h, hf]⟩)
    · exact .inr (.inr ⟨h, not_le.mp hf, by simp [State.holds, h, hf]⟩)

/-! ### Shares -/

/-- The record that a share index finds is the one at its place in the split reference (R153). -/
theorem shareAt_some {s : State} {t : Tab} {n : Nat} {j : ShareNo} {sh : Share} (h : s.shareAt t n = some (j, sh)) :
    1 ≤ n ∧ t.shareRefs[n - 1]? = some j ∧ s.shares.get j = .held sh := by
  unfold State.shareAt at h
  split at h
  · cases h
  · split at h
    · cases h
    · split at h
      · simp only [Option.some.injEq, Prod.mk.injEq] at h
        obtain ⟨rfl, rfl⟩ := h
        exact ⟨by omega, by assumption, by assumption⟩
      all_goals cases h

theorem Share.sound_create (tab index : Nat) (g : ShareFigures) : (createShare tab index g).sound = true := by
  unfold createShare Share.sound
  by_cases h : g.due = 0
  · simp [h]
  · have h' : ¬(0 = g.due) := fun e => h e.symm
    simp [h, h']

/-- A share keeps its books through a tender that applies at least 1 and at most what remains (R156). -/
theorem Share.sound_addTender {sh : Share} {d : Tender} (h : sh.sound = true) (h1 : 1 ≤ d.applied)
    (h2 : d.applied ≤ sh.remaining) (h4 : sh.tenders.length < 4) : (sh.addTender d).sound = true := by
  unfold Share.sound Share.addTender Share.remaining at *
  simp only [Bool.and_eq_true, decide_eq_true_eq, List.all_eq_true] at h
  obtain ⟨⟨⟨⟨hp, hd⟩, ha⟩, -⟩, hs⟩ := h
  have hne : sh.state ≠ .paid := fun e => by have := hs.mp e; omega
  simp only [Bool.and_eq_true, decide_eq_true_eq, List.all_eq_true, List.map_append, List.sum_append, List.map_cons,
    List.map_nil, List.sum_cons, List.sum_nil, List.length_append, List.length_cons, List.length_nil]
  refine ⟨⟨⟨⟨by omega, by omega⟩, ?_⟩, by omega⟩, ?_⟩
  · intro x hx
    rcases List.mem_append.mp hx with hx | hx
    · exact ha x hx
    · rw [List.mem_singleton.mp hx]; exact h1
  · by_cases he : sh.paid + d.applied = sh.figures.due
    · simp [he]
    · simp [he, hne]

/-- A share keeps its books when its most recent tender goes (R125). -/
theorem Share.sound_undo {sh : Share} (h : sh.sound = true) : sh.undo.sound = true := by
  unfold Share.undo
  split
  · exact h
  · rename_i d hd
    obtain ⟨ds, hds⟩ := List.getLast?_eq_some_iff.mp hd
    unfold Share.sound at *
    simp only [Bool.and_eq_true, decide_eq_true_eq, List.all_eq_true, hds, List.map_append, List.sum_append, List.map_cons,
      List.map_nil, List.sum_cons, List.sum_nil, List.length_append, List.length_cons, List.length_nil,
      List.dropLast_concat] at h ⊢
    obtain ⟨⟨⟨⟨hp, hdue⟩, ha⟩, hl⟩, -⟩ := h
    have h1 : 1 ≤ d.applied := ha d (by simp)
    refine ⟨⟨⟨⟨by omega, by omega⟩, fun x hx => ha x (by simp [hx])⟩, by omega⟩, ?_⟩
    constructor
    · intro e; cases e
    · intro e; omega

end Sys2Proof.Machine
end

