-- ==== Sys2Proof/Laws/PerInstr.lean ====
section
/-! SUPPORT. The family of statements made for every command: a well-formed request is a frame of a length the part takes. -/

namespace Sys2Proof

open Sys2Proof.Machine

/-! ### The bytes of a body are no more than a frame holds (R172) -/

theorem optional_size {α : Type} (c : Codec α) (n : Nat) (h : ∀ a, (c.put a).length = n) (o : Option α) :
    ((optionalCodec c).put o).length = optionalSize n o := by
  cases o with
  | none => rfl
  | some a =>
    show (u8 1 ++ c.put a).length = _
    rw [List.length_append, h a]
    exact Nat.add_comm _ _

theorem optional_size_le {α : Type} (c : Codec α) (n : Nat) (h : ∀ a, (c.put a).length = n) (o : Option α) :
    ((optionalCodec c).put o).length ≤ n + 1 := by
  rw [optional_size c n h]
  unfold optionalSize
  split <;> omega

theorem byte_size (n : Nat) : (byteCodec.put n).length = 1 := rfl

theorem word_size (n : Nat) : (wordCodec.put n).length = 4 := rfl

theorem list_size {α : Type} (c : Codec α) (n : Nat) (h : ∀ a, (c.put a).length = n) (l : List α) :
    ((listCodec c).put l).length = 1 + n * l.length := by
  show (u8 l.length ++ l.flatMap c.put).length = _
  rw [List.length_append, List.length_flatMap]
  have : l.map (fun a => (c.put a).length) = List.replicate l.length n := by
    rw [List.eq_replicate_iff]
    exact ⟨by simp, by simpa using fun a _ => h a⟩
  rw [this, List.sum_replicate, smul_eq_mul, Nat.mul_comm]
  rfl

theorem pair_size {α β : Type} (a : Codec α) (b : Codec β) (q : α × β) :
    ((pairCodec a b).put q).length = (a.put q.1).length + (b.put q.2).length := List.length_append

/-- A body whose codec writes a fixed number of bytes. -/
theorem fixed_size {α : Type} {c : Codec α} {n : Nat} (h : ∀ f, (c.put f).length = n) (hn : n ≤ 248) (f : α) :
    (c.put f).length ≤ 248 := (h f).trans_le hn

/-- A request whose body is short enough is a frame of a length the part takes. -/
theorem request_framed {α : Type} {k : Kind} {c : Codec α} {tag : Nat} {body : Body α} {fits : α → Bool} {bytes : List Byte}
    (hw : requestOk tag body fits = true) (hs : ∀ f, fits f = true → (c.put f).length ≤ 248)
    (hb : requestFrame k c tag body = some bytes) :
    ∃ content, bytes = wrapFrame content ∧ 2 ≤ content.length ∧ content.length ≤ 250 := by
  cases body with
  | unread _ => cases hb
  | fields f =>
    injection hb with hb
    simp only [requestOk, Bool.and_eq_true] at hw
    have hf := hs f hw.2
    refine ⟨_, hb.symm, ?_, ?_⟩ <;> simp only [List.length_append, u8, List.length_singleton] <;> omega

theorem workingCodec_short (p : Port) (f : Option Nat) (_ : workingFits p f = true) :
    ((workingCodec p).put f).length ≤ 248 := by
  cases p <;> exact Nat.le_of_ble_eq_true rfl

theorem addLineCodec_short (f : AddLineFields) (h : f.fits = true) : (addLineCodec.put f).length ≤ 248 := by
  have h' : 5 + optionalSize 1 f.quantity + optionalSize 1 f.seat + f.mods.length ≤ 248 := by
    unfold AddLineFields.fits at h
    exact of_decide_eq_true (Bool.and_eq_true_iff.mp h).2
  have hs : (addLineCodec.put f).length
      = 2 + (2 + (optionalSize 1 f.quantity + (optionalSize 1 f.seat + (1 + 1 * f.mods.length)))) := by
    rw [← list_size byteCodec 1 byte_size, ← optional_size byteCodec 1 byte_size, ← optional_size byteCodec 1 byte_size]
    simp only [addLineCodec, recordCodec, pair_size]
    rfl
  omega

theorem byteCodec_short (f : Nat) : (byteCodec.put f).length ≤ 248 := fixed_size (n := 1) (fun _ => rfl) (by omega) f

theorem clearLockoutCodec_short (f : ClearLockoutFields) : (clearLockoutCodec.put f).length ≤ 248 := fixed_size (n := 3) (fun _ => rfl) (by omega) f

theorem compLineCodec_short (f : CompLineFields) : (compLineCodec.put f).length ≤ 248 := fixed_size (n := 4) (fun _ => rfl) (by omega) f

theorem fireCodec_short (f : FireFields) (h : f.fits = true) : (fireCodec.put f).length ≤ 248 := by
  obtain ⟨tab, groups⟩ := f
  cases groups with
  | none => exact Nat.le_of_ble_eq_true rfl
  | some gs =>
    have h' : 4 + gs.length ≤ 248 := by
      unfold FireFields.fits at h
      exact of_decide_eq_true (Bool.and_eq_true_iff.mp (Bool.and_eq_true_iff.mp h).2).2
    have hs : (fireCodec.put ⟨tab, some gs⟩).length = 2 + (1 + (1 + 1 * gs.length)) := by
      rw [← list_size byteCodec 1 byte_size]
      simp only [fireCodec, recordCodec, pair_size]
      rw [show (optionalCodec (listCodec byteCodec)).put (some gs) = u8 1 ++ (listCodec byteCodec).put gs from rfl,
        List.length_append]
      rfl
    omega

theorem halfCodec_short (f : Nat) : (halfCodec.put f).length ≤ 248 := fixed_size (n := 2) (fun _ => rfl) (by omega) f

theorem loadItemCodec_short (f : LoadItemFields) : (loadItemCodec.put f).length ≤ 248 := fixed_size (n := 12) (fun _ => rfl) (by omega) f

theorem loadModifierCodec_short (f : LoadModifierFields) : (loadModifierCodec.put f).length ≤ 248 := fixed_size (n := 3) (fun _ => rfl) (by omega) f

theorem openTabCodec_short (f : OpenTabFields) (_ : f.fits = true) : (openTabCodec.put f).length ≤ 248 := by
  have := optional_size_le wordCodec 4 word_size f.pin
  have hs : (openTabCodec.put f).length = 2 + ((optionalCodec wordCodec).put f.pin).length := List.length_append
  omega

theorem overridePriceCodec_short (f : OverridePriceFields) (_ : f.fits = true) : (overridePriceCodec.put f).length ≤ 248 := by
  have := optional_size_le wordCodec 4 word_size f.price
  have hs : (overridePriceCodec.put f).length = 2 + (1 + (((optionalCodec wordCodec).put f.price).length + 1)) := by
    simp only [overridePriceCodec, recordCodec, pair_size]
    rfl
  omega

theorem setCountCodec_short (f : SetCountFields) : (setCountCodec.put f).length ≤ 248 := fixed_size (n := 4) (fun _ => rfl) (by omega) f

theorem setGroupPriorityCodec_short (f : SetGroupPriorityFields) : (setGroupPriorityCodec.put f).length ≤ 248 := fixed_size (n := 2) (fun _ => rfl) (by omega) f

theorem setPortCodec_short (f : SetPortFields) (_ : f.fits = true) : (setPortCodec.put f).length ≤ 248 := by
  have := optional_size_le byteCodec 1 byte_size f.station
  have hs : (setPortCodec.put f).length = 1 + (1 + (((optionalCodec byteCodec).put f.station).length + (1 + 1))) := by
    simp only [setPortCodec, recordCodec, pair_size]
    rfl
  omega

theorem setServiceCodec_short (f : SetServiceFields) : (setServiceCodec.put f).length ≤ 248 := fixed_size (n := 4) (fun _ => rfl) (by omega) f

theorem setStationCodec_short (f : SetStationFields) (_ : f.fits = true) : (setStationCodec.put f).length ≤ 248 := by
  have := optional_size_le byteCodec 1 byte_size f.alternate
  have hs : (setStationCodec.put f).length = 1 + (1 + (((optionalCodec byteCodec).put f.alternate).length + 2)) := by
    simp only [setStationCodec, recordCodec, pair_size]
    rfl
  omega

theorem setTaxRateCodec_short (f : SetTaxRateFields) : (setTaxRateCodec.put f).length ≤ 248 := fixed_size (n := 3) (fun _ => rfl) (by omega) f

theorem splitCodec_short (f : SplitFields) (h : f.fits = true) : (splitCodec.put f).length ≤ 248 := by
  obtain ⟨tab, mode, count, map⟩ := f
  have hc := optional_size_le byteCodec 1 byte_size count
  have hs : (splitCodec.put ⟨tab, mode, count, map⟩).length
      = 2 + (1 + (((optionalCodec byteCodec).put count).length
          + ((optionalCodec (listCodec (pairCodec byteCodec byteCodec))).put map).length)) := by
    simp only [splitCodec, recordCodec, pair_size]
    rfl
  cases map with
  | none =>
    have : ((optionalCodec (listCodec (pairCodec byteCodec byteCodec))).put none).length = 1 := rfl
    omega
  | some m =>
    have h' : 7 + 2 * m.length ≤ 248 := by
      unfold SplitFields.fits at h
      exact of_decide_eq_true (Bool.and_eq_true_iff.mp (Bool.and_eq_true_iff.mp h).2).2
    have hm := list_size (pairCodec byteCodec byteCodec) 2 (fun _ => rfl) m
    have : ((optionalCodec (listCodec (pairCodec byteCodec byteCodec))).put (some m)).length
        = 1 + ((listCodec (pairCodec byteCodec byteCodec)).put m).length := by
      rw [show (optionalCodec (listCodec (pairCodec byteCodec byteCodec))).put (some m)
        = u8 1 ++ (listCodec (pairCodec byteCodec byteCodec)).put m from rfl, List.length_append]
      rfl
    omega

theorem tabPageCodec_short (f : TabPageFields) : (tabPageCodec.put f).length ≤ 248 := fixed_size (n := 3) (fun _ => rfl) (by omega) f

theorem tabPinCodec_short (f : TabPinFields) (_ : f.fits = true) : (tabPinCodec.put f).length ≤ 248 := by
  have := optional_size_le wordCodec 4 word_size f.pin
  have hs : (tabPinCodec.put f).length = 2 + ((optionalCodec wordCodec).put f.pin).length := List.length_append
  omega

theorem tenderCodec_short (f : TenderFields) (_ : f.fits = true) : (tenderCodec.put f).length ≤ 248 := by
  have h1 := optional_size_le wordCodec 4 word_size f.amount
  have h2 := optional_size_le wordCodec 4 word_size f.tip
  have hs : (tenderCodec.put f).length = 2 + (1 + (1 + (((optionalCodec wordCodec).put f.amount).length
      + ((optionalCodec wordCodec).put f.tip).length))) := by
    simp only [tenderCodec, recordCodec, pair_size]
    rfl
  omega

theorem undoTenderCodec_short (f : UndoTenderFields) : (undoTenderCodec.put f).length ≤ 248 := fixed_size (n := 4) (fun _ => rfl) (by omega) f

theorem unitCodec_short (f : Unit) : (unitCodec.put f).length ≤ 248 := fixed_size (n := 0) (fun _ => rfl) (by omega) f

theorem voidLineCodec_short (f : VoidLineFields) : (voidLineCodec.put f).length ≤ 248 := fixed_size (n := 3) (fun _ => rfl) (by omega) f

theorem wordCodec_short (f : Nat) : (wordCodec.put f).length ≤ 248 := fixed_size (n := 4) (fun _ => rfl) (by omega) f

/-! ### A body that is read has as many bytes as its fields are written with (R176, R178) -/

/-- Reading takes exactly the bytes that writing what was read gives. -/
def Codec.exact {α : Type} (c : Codec α) : Prop :=
  ∀ bytes a rest, c.get bytes = some (a, rest) → bytes.length = (c.put a).length + rest.length

theorem byte_exact : byteCodec.exact := by
  intro bytes a rest h
  match bytes, h with
  | _ :: _, h => cases h; exact Nat.add_comm _ _

theorem half_exact : halfCodec.exact := by
  intro bytes a rest h
  match bytes, h with
  | _ :: _ :: _, h => cases h; exact Nat.add_comm rest.length 2

theorem word_exact : wordCodec.exact := by
  intro bytes a rest h
  match bytes, h with
  | _ :: _ :: _ :: _ :: _, h => cases h; exact Nat.add_comm rest.length 4

theorem getFlag_size {bytes rest : List Byte} {b : Bool} (h : getFlag bytes = some (b, rest)) :
    bytes.length = 1 + rest.length := by
  match bytes, h with
  | x :: xs, h =>
    simp only [getFlag] at h
    split at h
    · cases h; exact Nat.add_comm _ _
    · split at h <;> cases h
      exact Nat.add_comm _ _

theorem flag_exact : flagCodec.exact := fun _ _ _ h => getFlag_size h

theorem unit_exact : unitCodec.exact := by
  intro bytes a rest h
  cases h
  exact (Nat.zero_add _).symm

theorem delta_exact : deltaCodec.exact := by
  intro bytes a rest h
  simp only [deltaCodec, Option.map_eq_some_iff] at h
  obtain ⟨q, hq, he⟩ := h
  cases he
  exact half_exact bytes q.1 q.2 hq

theorem pair_exact {α β : Type} {a : Codec α} {b : Codec β} (ha : a.exact) (hb : b.exact) : (pairCodec a b).exact := by
  intro bytes q rest h
  simp only [pairCodec, Option.bind_eq_some_iff, Option.map_eq_some_iff] at h
  obtain ⟨x, hx, y, hy, he⟩ := h
  cases he
  have h1 := ha _ _ _ hx
  have h2 := hb _ _ _ hy
  rw [pair_size]
  dsimp only
  omega

theorem optional_exact {α : Type} {a : Codec α} (ha : a.exact) : (optionalCodec a).exact := by
  intro bytes o rest h
  simp only [optionalCodec, Option.bind_eq_some_iff] at h
  obtain ⟨⟨b, xs⟩, hx, h⟩ := h
  have h1 := getFlag_size hx
  cases b with
  | false =>
    cases h
    exact h1
  | true =>
    simp only [if_true, Option.map_eq_some_iff] at h
    obtain ⟨y, hy, he⟩ := h
    cases he
    have h2 := ha _ _ _ hy
    show _ = (u8 1 ++ a.put y.1).length + _
    rw [List.length_append]
    simp only [u8, List.length_singleton]
    omega

theorem many_exact {α : Type} {a : Codec α} (ha : a.exact) (n : Nat) (bytes : List Byte) (l : List α) (rest : List Byte)
    (h : getMany a n bytes = some (l, rest)) : bytes.length = (l.flatMap a.put).length + rest.length := by
  induction n generalizing bytes l with
  | zero =>
    cases h
    exact (Nat.zero_add _).symm
  | succ n ih =>
    simp only [getMany, Option.bind_eq_some_iff, Option.map_eq_some_iff] at h
    obtain ⟨x, hx, y, hy, he⟩ := h
    cases he
    have h1 := ha _ _ _ hx
    have h2 := ih _ _ hy
    rw [List.flatMap_cons, List.length_append]
    omega

theorem list_exact {α : Type} {a : Codec α} (ha : a.exact) : (listCodec a).exact := by
  intro bytes l rest h
  simp only [listCodec, Option.bind_eq_some_iff] at h
  obtain ⟨x, hx, h⟩ := h
  have h1 : bytes.length = 1 + x.2.length := byte_exact bytes x.1 x.2 hx
  have h2 := many_exact ha _ _ _ _ h
  show _ = (u8 l.length ++ l.flatMap a.put).length + _
  rw [List.length_append]
  simp only [u8, List.length_singleton]
  omega

theorem record_exact {α β : Type} {a : Codec α} {make : α → β} {parts : β → α} (ha : a.exact)
    (hp : ∀ x, parts (make x) = x) : (recordCodec a make parts).exact := by
  intro bytes r rest h
  simp only [recordCodec, Option.map_eq_some_iff] at h
  obtain ⟨x, hx, he⟩ := h
  cases he
  show _ = (a.put (parts (make x.1))).length + _
  rw [hp]
  exact ha _ _ _ hx

/-- The size of a received request is that of its frame, whether its body can be read or not. -/
theorem requestSize_readBody {α : Type} {c : Codec α} (hc : c.exact) (bytes : List Byte) :
    requestSize c (readBody c bytes) = bytes.length + 6 := by
  unfold readBody
  split
  · have := hc _ _ _ ‹_›
    simp only [requestSize, frameSize, List.length_nil] at this ⊢
    omega
  · simp only [requestSize, frameSize]
    omega

theorem openTabCodec_exact : openTabCodec.exact := record_exact (pair_exact half_exact (optional_exact word_exact)) fun _ => rfl

theorem tabPageCodec_exact : tabPageCodec.exact := record_exact (pair_exact half_exact byte_exact) fun _ => rfl

theorem addLineCodec_exact : addLineCodec.exact :=
  record_exact
    (pair_exact half_exact (pair_exact half_exact (pair_exact (optional_exact byte_exact) (pair_exact (optional_exact byte_exact) (list_exact byte_exact)))))
    fun _ => rfl

theorem voidLineCodec_exact : voidLineCodec.exact := record_exact (pair_exact half_exact byte_exact) fun _ => rfl

theorem compLineCodec_exact : compLineCodec.exact :=
  record_exact
    (pair_exact half_exact (pair_exact byte_exact byte_exact))
    fun _ => rfl

theorem overridePriceCodec_exact : overridePriceCodec.exact :=
  record_exact
    (pair_exact half_exact (pair_exact byte_exact (pair_exact (optional_exact word_exact) byte_exact)))
    fun _ => rfl

theorem setServiceCodec_exact : setServiceCodec.exact := record_exact (pair_exact half_exact half_exact) fun _ => rfl

theorem tabPinCodec_exact : tabPinCodec.exact := record_exact (pair_exact half_exact (optional_exact word_exact)) fun _ => rfl

theorem clearLockoutCodec_exact : clearLockoutCodec.exact := record_exact (pair_exact half_exact byte_exact) fun _ => rfl

theorem fireCodec_exact : fireCodec.exact :=
  record_exact
    (pair_exact half_exact (optional_exact (list_exact byte_exact)))
    fun _ => rfl

theorem setStationCodec_exact : setStationCodec.exact :=
  record_exact
    (pair_exact byte_exact (pair_exact byte_exact (pair_exact (optional_exact byte_exact) half_exact)))
    fun _ => rfl

theorem splitCodec_exact : splitCodec.exact :=
  record_exact
    (pair_exact half_exact (pair_exact byte_exact (pair_exact (optional_exact byte_exact) (optional_exact (list_exact (pair_exact byte_exact byte_exact))))))
    fun _ => rfl

theorem tenderCodec_exact : tenderCodec.exact :=
  record_exact
    (pair_exact half_exact (pair_exact byte_exact (pair_exact byte_exact (pair_exact (optional_exact word_exact) (optional_exact word_exact)))))
    fun _ => rfl

theorem undoTenderCodec_exact : undoTenderCodec.exact :=
  record_exact
    (pair_exact half_exact (pair_exact byte_exact byte_exact))
    fun _ => rfl

theorem loadItemCodec_exact : loadItemCodec.exact :=
  record_exact
    (pair_exact half_exact (pair_exact word_exact (pair_exact byte_exact (pair_exact byte_exact (pair_exact byte_exact (pair_exact byte_exact half_exact))))))
    fun _ => rfl

theorem loadModifierCodec_exact : loadModifierCodec.exact := record_exact (pair_exact byte_exact delta_exact) fun _ => rfl

theorem setTaxRateCodec_exact : setTaxRateCodec.exact := record_exact (pair_exact byte_exact half_exact) fun _ => rfl

theorem setGroupPriorityCodec_exact : setGroupPriorityCodec.exact :=
  record_exact
    (pair_exact byte_exact byte_exact)
    fun _ => rfl

theorem setCountCodec_exact : setCountCodec.exact := record_exact (pair_exact half_exact half_exact) fun _ => rfl

theorem setPortCodec_exact : setPortCodec.exact :=
  record_exact
    (pair_exact byte_exact (pair_exact byte_exact (pair_exact (optional_exact byte_exact) (pair_exact flag_exact flag_exact))))
    fun _ => rfl

theorem workingCodec_exact (p : Port) : (workingCodec p).exact := by
  cases p with
  | lane l =>
    intro bytes a rest h
    simp only [workingCodec, recordCodec, unitCodec, Option.map_some, Option.some.injEq, Prod.mk.injEq] at h
    rw [h.2]
    exact (Nat.zero_add _).symm
  | office => exact record_exact byte_exact fun _ => rfl

namespace Laws.FramedRequest

/-- A well-formed request that has a frame has one of 2 to 250 bytes between its length byte and its CRC. -/
def Statement (i : Instr) : Prop :=
  i.wellFormed = true → ∀ bytes, frameOf i = some bytes →
    ∃ content, bytes = wrapFrame content ∧ 2 ≤ content.length ∧ content.length ≤ 250

theorem powerOn : Statement .powerOn :=
  fun _ _ hb => nomatch hb

theorem resetPin : Statement .resetPin :=
  fun _ _ hb => nomatch hb

theorem reset (port : Port) (tag : Nat) (body : Body Unit) : Statement (.reset port tag body) :=
  fun hw _ hb => request_framed hw (fun f _ => unitCodec_short f) hb

theorem secondTick : Statement .secondTick :=
  fun _ _ hb => nomatch hb

theorem lateExpiry (ticket : Nat) : Statement (.lateExpiry ticket) :=
  fun _ _ hb => nomatch hb

theorem claimLapse (tab : Nat) : Statement (.claimLapse tab) :=
  fun _ _ hb => nomatch hb

theorem frameTimeout (l : Lane) : Statement (.frameTimeout l) :=
  fun _ _ hb => nomatch hb

theorem lengthError (port : Port) (length : Nat) : Statement (.lengthError port length) :=
  fun _ _ hb => nomatch hb

theorem crcMismatch (port : Port) (bytes : List Byte) (crc : BitVec 16) : Statement (.crcMismatch port bytes crc) :=
  fun _ _ hb => nomatch hb

theorem csDeasserted : Statement .csDeasserted :=
  fun _ _ hb => nomatch hb

theorem badTagOrKind (port : Port) (tag : Nat) (kind : KindAndBody) : Statement (.badTagOrKind port tag kind) :=
  fun _ _ hb => nomatch hb

theorem unknownKind (port : Port) (tag : Nat) (kind : KindAndBody) : Statement (.unknownKind port tag kind) :=
  fun _ _ hb => nomatch hb

theorem transmitListFull (l : Lane) : Statement (.transmitListFull l) :=
  fun _ _ hb => nomatch hb

theorem officeRequestOverrun : Statement .officeRequestOverrun :=
  fun _ _ hb => nomatch hb

theorem frameSent (l : Lane) : Statement (.frameSent l) :=
  fun _ _ hb => nomatch hb

theorem replyClockedOut : Statement .replyClockedOut :=
  fun _ _ hb => nomatch hb

theorem openTab (port : Port) (tag : Nat) (body : Body OpenTabFields) : Statement (.openTab port tag body) :=
  fun hw _ hb => request_framed hw openTabCodec_short hb

theorem tabView (port : Port) (tag : Nat) (body : Body TabPageFields) : Statement (.tabView port tag body) :=
  fun hw _ hb => request_framed hw (fun f _ => tabPageCodec_short f) hb

theorem addLine (port : Port) (tag : Nat) (body : Body AddLineFields) : Statement (.addLine port tag body) :=
  fun hw _ hb => request_framed hw addLineCodec_short hb

theorem voidLine (port : Port) (tag : Nat) (body : Body VoidLineFields) : Statement (.voidLine port tag body) :=
  fun hw _ hb => request_framed hw (fun f _ => voidLineCodec_short f) hb

theorem compLine (port : Port) (tag : Nat) (body : Body CompLineFields) : Statement (.compLine port tag body) :=
  fun hw _ hb => request_framed hw (fun f _ => compLineCodec_short f) hb

theorem overridePrice (port : Port) (tag : Nat) (body : Body OverridePriceFields) : Statement (.overridePrice port tag body) :=
  fun hw _ hb => request_framed hw overridePriceCodec_short hb

theorem follow (port : Port) (tag : Nat) (body : Body Nat) : Statement (.follow port tag body) :=
  fun hw _ hb => request_framed hw (fun f _ => halfCodec_short f) hb

theorem unfollow (port : Port) (tag : Nat) (body : Body Nat) : Statement (.unfollow port tag body) :=
  fun hw _ hb => request_framed hw (fun f _ => halfCodec_short f) hb

theorem setService (port : Port) (tag : Nat) (body : Body SetServiceFields) : Statement (.setService port tag body) :=
  fun hw _ hb => request_framed hw (fun f _ => setServiceCodec_short f) hb

theorem unlock (port : Port) (tag : Nat) (body : Body TabPinFields) : Statement (.unlock port tag body) :=
  fun hw _ hb => request_framed hw tabPinCodec_short hb

theorem lock (port : Port) (tag : Nat) (body : Body Nat) : Statement (.lock port tag body) :=
  fun hw _ hb => request_framed hw (fun f _ => halfCodec_short f) hb

theorem setPin (port : Port) (tag : Nat) (body : Body TabPinFields) : Statement (.setPin port tag body) :=
  fun hw _ hb => request_framed hw tabPinCodec_short hb

theorem clearLockout (port : Port) (tag : Nat) (body : Body ClearLockoutFields) : Statement (.clearLockout port tag body) :=
  fun hw _ hb => request_framed hw (fun f _ => clearLockoutCodec_short f) hb

theorem fire (port : Port) (tag : Nat) (body : Body FireFields) : Statement (.fire port tag body) :=
  fun hw _ hb => request_framed hw fireCodec_short hb

theorem rail (port : Port) (tag : Nat) (body : Body Unit) : Statement (.rail port tag body) :=
  fun hw _ hb => request_framed hw (fun f _ => unitCodec_short f) hb

theorem take (port : Port) (tag : Nat) (body : Body Unit) : Statement (.take port tag body) :=
  fun hw _ hb => request_framed hw (fun f _ => unitCodec_short f) hb

theorem bump (port : Port) (tag : Nat) (body : Body Unit) : Statement (.bump port tag body) :=
  fun hw _ hb => request_framed hw (fun f _ => unitCodec_short f) hb

theorem resume (port : Port) (tag : Nat) (body : Body Unit) : Statement (.resume port tag body) :=
  fun hw _ hb => request_framed hw (fun f _ => unitCodec_short f) hb

theorem recallTicket (port : Port) (tag : Nat) (body : Body Nat) : Statement (.recallTicket port tag body) :=
  fun hw _ hb => request_framed hw (fun f _ => halfCodec_short f) hb

theorem holdLow (port : Port) (tag : Nat) (body : Body Nat) : Statement (.holdLow port tag body) :=
  fun hw _ hb => request_framed hw (fun f _ => byteCodec_short f) hb

theorem pause (port : Port) (tag : Nat) (body : Body (Option Nat)) : Statement (.pause port tag body) :=
  fun hw _ hb => request_framed hw (workingCodec_short port) hb

theorem openStation (port : Port) (tag : Nat) (body : Body (Option Nat)) : Statement (.openStation port tag body) :=
  fun hw _ hb => request_framed hw (workingCodec_short port) hb

theorem stationView (port : Port) (tag : Nat) (body : Body Nat) : Statement (.stationView port tag body) :=
  fun hw _ hb => request_framed hw (fun f _ => byteCodec_short f) hb

theorem setStation (port : Port) (tag : Nat) (body : Body SetStationFields) : Statement (.setStation port tag body) :=
  fun hw _ hb => request_framed hw setStationCodec_short hb

theorem passSupervisor (port : Port) (tag : Nat) (body : Body Nat) : Statement (.passSupervisor port tag body) :=
  fun hw _ hb => request_framed hw (fun f _ => byteCodec_short f) hb

theorem reclaim (port : Port) (tag : Nat) (body : Body Unit) : Statement (.reclaim port tag body) :=
  fun hw _ hb => request_framed hw (fun f _ => unitCodec_short f) hb

theorem approvalList (port : Port) (tag : Nat) (body : Body Nat) : Statement (.approvalList port tag body) :=
  fun hw _ hb => request_framed hw (fun f _ => byteCodec_short f) hb

theorem approve (port : Port) (tag : Nat) (body : Body Nat) : Statement (.approve port tag body) :=
  fun hw _ hb => request_framed hw (fun f _ => byteCodec_short f) hb

theorem deny (port : Port) (tag : Nat) (body : Body Nat) : Statement (.deny port tag body) :=
  fun hw _ hb => request_framed hw (fun f _ => byteCodec_short f) hb

theorem withdraw (port : Port) (tag : Nat) (body : Body Nat) : Statement (.withdraw port tag body) :=
  fun hw _ hb => request_framed hw (fun f _ => byteCodec_short f) hb

theorem results (port : Port) (tag : Nat) (body : Body Unit) : Statement (.results port tag body) :=
  fun hw _ hb => request_framed hw (fun f _ => unitCodec_short f) hb

theorem split (port : Port) (tag : Nat) (body : Body SplitFields) : Statement (.split port tag body) :=
  fun hw _ hb => request_framed hw splitCodec_short hb

theorem splitBegin : Statement .splitBegin :=
  fun _ _ hb => nomatch hb

theorem splitCompletion : Statement .splitCompletion :=
  fun _ _ hb => nomatch hb

theorem shareView (port : Port) (tag : Nat) (body : Body TabPageFields) : Statement (.shareView port tag body) :=
  fun hw _ hb => request_framed hw (fun f _ => tabPageCodec_short f) hb

theorem tender (port : Port) (tag : Nat) (body : Body TenderFields) : Statement (.tender port tag body) :=
  fun hw _ hb => request_framed hw tenderCodec_short hb

theorem undoTender (port : Port) (tag : Nat) (body : Body UndoTenderFields) : Statement (.undoTender port tag body) :=
  fun hw _ hb => request_framed hw (fun f _ => undoTenderCodec_short f) hb

theorem dropSplit (port : Port) (tag : Nat) (body : Body Nat) : Statement (.dropSplit port tag body) :=
  fun hw _ hb => request_framed hw (fun f _ => halfCodec_short f) hb

theorem adopt (port : Port) (tag : Nat) (body : Body Nat) : Statement (.adopt port tag body) :=
  fun hw _ hb => request_framed hw (fun f _ => halfCodec_short f) hb

theorem takeClosed (port : Port) (tag : Nat) (body : Body Unit) : Statement (.takeClosed port tag body) :=
  fun hw _ hb => request_framed hw (fun f _ => unitCodec_short f) hb

theorem loadItem (port : Port) (tag : Nat) (body : Body LoadItemFields) : Statement (.loadItem port tag body) :=
  fun hw _ hb => request_framed hw (fun f _ => loadItemCodec_short f) hb

theorem withdrawItem (port : Port) (tag : Nat) (body : Body Nat) : Statement (.withdrawItem port tag body) :=
  fun hw _ hb => request_framed hw (fun f _ => halfCodec_short f) hb

theorem loadModifier (port : Port) (tag : Nat) (body : Body LoadModifierFields) : Statement (.loadModifier port tag body) :=
  fun hw _ hb => request_framed hw (fun f _ => loadModifierCodec_short f) hb

theorem setTaxRate (port : Port) (tag : Nat) (body : Body SetTaxRateFields) : Statement (.setTaxRate port tag body) :=
  fun hw _ hb => request_framed hw (fun f _ => setTaxRateCodec_short f) hb

theorem setGroupPriority (port : Port) (tag : Nat) (body : Body SetGroupPriorityFields) : Statement (.setGroupPriority port tag body) :=
  fun hw _ hb => request_framed hw (fun f _ => setGroupPriorityCodec_short f) hb

theorem setCount (port : Port) (tag : Nat) (body : Body SetCountFields) : Statement (.setCount port tag body) :=
  fun hw _ hb => request_framed hw (fun f _ => setCountCodec_short f) hb

theorem availability (port : Port) (tag : Nat) (body : Body Nat) : Statement (.availability port tag body) :=
  fun hw _ hb => request_framed hw (fun f _ => halfCodec_short f) hb

theorem setPort (port : Port) (tag : Nat) (body : Body SetPortFields) : Statement (.setPort port tag body) :=
  fun hw _ hb => request_framed hw setPortCodec_short hb

theorem events (port : Port) (tag : Nat) (body : Body Unit) : Statement (.events port tag body) :=
  fun hw _ hb => request_framed hw (fun f _ => unitCodec_short f) hb

theorem setMask (port : Port) (tag : Nat) (body : Body Nat) : Statement (.setMask port tag body) :=
  fun hw _ hb => request_framed hw (fun f _ => halfCodec_short f) hb

theorem setClock (port : Port) (tag : Nat) (body : Body Nat) : Statement (.setClock port tag body) :=
  fun hw _ hb => request_framed hw (fun f _ => wordCodec_short f) hb

theorem status (port : Port) (tag : Nat) (body : Body Unit) : Statement (.status port tag body) :=
  fun hw _ hb => request_framed hw (fun f _ => unitCodec_short f) hb

theorem startByteReceived (port : StartByte) : Statement (.startByteReceived port) :=
  fun _ _ hb => nomatch hb

theorem resetPinAsserted : Statement .resetPinAsserted :=
  fun _ _ hb => nomatch hb

end Laws.FramedRequest

end Sys2Proof
end

