-- ==== Sys2Proof/Tests/Slice0.lean ====
section
/-! SUPPORT. Tests of the model against the spec's own worked figures, a refused term for each check of WellFormed, and for each
statement with hypotheses a state and operands that meet them. -/

namespace Sys2Proof.Tests

open Sys2Proof Sys2Proof.Machine

-- One theorem after another: side by side, the kernel evaluations below ask for more threads than the check allows.
set_option Elab.async false

/-! ### WellFormed refuses a term for each of its checks -/

theorem test_wellFormed_tags :
    ([.rail (.lane 0) 0 (.fields ()), .rail (.lane 0) 256 (.fields ()), .take (.lane 0) 0 (.unread []),
      .take (.lane 0) 1 (.unread (List.replicate 249 0)), .unknownKind .office 0 ⟨0, []⟩, .unknownKind .office 256 ⟨0, []⟩,
      .unknownKind .office 1 ⟨128, []⟩, .unknownKind .office 1 ⟨0, List.replicate 249 0⟩, .badTagOrKind .office 1 ⟨127, []⟩,
      .badTagOrKind .office 256 ⟨128, []⟩, .badTagOrKind .office 0 ⟨256, []⟩,
      .badTagOrKind .office 0 ⟨0, List.replicate 249 0⟩] : List Instr).all (fun c => !c.wellFormed) = true := by decide +kernel

theorem test_wellFormed_frames :
    ([.lengthError .office 2, .lengthError .office 250, .lengthError .office 256, .crcMismatch .office [2, 1] 0,
      .crcMismatch .office (List.replicate 252 0) 0, .lateExpiry 65536, .claimLapse 65536] : List Instr).all
      (fun c => !c.wellFormed) = true := by decide +kernel

theorem test_wellFormed_tab_requests :
    ([.openTab .office 1 (.fields ⟨65536, none⟩), .openTab .office 1 (.fields ⟨0, some 4294967296⟩),
      .tabView .office 1 (.fields ⟨65536, 0⟩), .tabView .office 1 (.fields ⟨0, 256⟩),
      .addLine .office 1 (.fields ⟨65536, 0, none, none, []⟩), .addLine .office 1 (.fields ⟨0, 65536, none, none, []⟩),
      .addLine .office 1 (.fields ⟨0, 0, some 256, none, []⟩), .addLine .office 1 (.fields ⟨0, 0, none, some 256, []⟩),
      .addLine .office 1 (.fields ⟨0, 0, none, none, [256]⟩),
      .addLine .office 1 (.fields ⟨0, 0, none, none, List.replicate 242 0⟩), .voidLine .office 1 (.fields ⟨65536, 0⟩),
      .voidLine .office 1 (.fields ⟨0, 256⟩), .compLine .office 1 (.fields ⟨65536, 0, 0⟩),
      .compLine .office 1 (.fields ⟨0, 256, 0⟩), .compLine .office 1 (.fields ⟨0, 0, 256⟩),
      .overridePrice .office 1 (.fields ⟨65536, 0, none, 0⟩), .overridePrice .office 1 (.fields ⟨0, 256, none, 0⟩),
      .overridePrice .office 1 (.fields ⟨0, 0, some 4294967296, 0⟩), .overridePrice .office 1 (.fields ⟨0, 0, none, 256⟩),
      .follow .office 1 (.fields 65536), .unfollow .office 1 (.fields 65536), .setService .office 1 (.fields ⟨65536, 0⟩),
      .setService .office 1 (.fields ⟨0, 65536⟩), .unlock .office 1 (.fields ⟨65536, none⟩),
      .unlock .office 1 (.fields ⟨0, some 4294967296⟩), .lock .office 1 (.fields 65536), .setPin .office 1 (.fields ⟨65536, none⟩),
      .clearLockout .office 1 (.fields ⟨65536, 0⟩), .clearLockout .office 1 (.fields ⟨0, 256⟩)] : List Instr).all
      (fun c => !c.wellFormed) = true := by decide +kernel

theorem test_wellFormed_kitchen_requests :
    ([.fire .office 1 (.fields ⟨65536, none⟩), .fire .office 1 (.fields ⟨0, some [256]⟩),
      .fire .office 1 (.fields ⟨0, some (List.replicate 245 0)⟩), .recallTicket .office 1 (.fields 65536),
      .holdLow .office 1 (.fields 256), .pause (.lane 0) 1 (.fields (some 0)), .pause .office 1 (.fields none),
      .pause .office 1 (.fields (some 256)), .openStation (.lane 0) 1 (.fields (some 0)), .openStation .office 1 (.fields none),
      .stationView .office 1 (.fields 256), .setStation .office 1 (.fields ⟨256, 0, none, 0⟩),
      .setStation .office 1 (.fields ⟨0, 256, none, 0⟩), .setStation .office 1 (.fields ⟨0, 0, some 256, 0⟩),
      .setStation .office 1 (.fields ⟨0, 0, none, 65536⟩)] : List Instr).all (fun c => !c.wellFormed) = true := by
  decide +kernel

theorem test_wellFormed_settlement_requests :
    ([.passSupervisor .office 1 (.fields 256), .approvalList .office 1 (.fields 256), .approve .office 1 (.fields 256),
      .deny .office 1 (.fields 256), .withdraw .office 1 (.fields 256), .split .office 1 (.fields ⟨65536, 0, none, none⟩),
      .split .office 1 (.fields ⟨0, 256, none, none⟩), .split .office 1 (.fields ⟨0, 0, some 256, none⟩),
      .split .office 1 (.fields ⟨0, 0, none, some [(256, 0)]⟩), .split .office 1 (.fields ⟨0, 0, none, some [(0, 256)]⟩),
      .split .office 1 (.fields ⟨0, 0, none, some (List.replicate 121 (0, 0))⟩), .tender .office 1 (.fields ⟨65536, 0, 0, none, none⟩),
      .tender .office 1 (.fields ⟨0, 256, 0, none, none⟩), .tender .office 1 (.fields ⟨0, 0, 256, none, none⟩),
      .tender .office 1 (.fields ⟨0, 0, 0, some 4294967296, none⟩), .tender .office 1 (.fields ⟨0, 0, 0, none, some 4294967296⟩),
      .undoTender .office 1 (.fields ⟨65536, 0, 0⟩), .undoTender .office 1 (.fields ⟨0, 256, 0⟩),
      .undoTender .office 1 (.fields ⟨0, 0, 256⟩), .dropSplit .office 1 (.fields 65536), .adopt .office 1 (.fields 65536),
      .shareView .office 1 (.fields ⟨65536, 0⟩)] : List Instr).all (fun c => !c.wellFormed) = true := by decide +kernel

theorem test_wellFormed_office_requests :
    ([.loadItem .office 1 (.fields ⟨65536, 0, 0, 0, 0, 0, 0⟩), .loadItem .office 1 (.fields ⟨0, 4294967296, 0, 0, 0, 0, 0⟩),
      .loadItem .office 1 (.fields ⟨0, 0, 256, 0, 0, 0, 0⟩), .loadItem .office 1 (.fields ⟨0, 0, 0, 256, 0, 0, 0⟩),
      .loadItem .office 1 (.fields ⟨0, 0, 0, 0, 256, 0, 0⟩), .loadItem .office 1 (.fields ⟨0, 0, 0, 0, 0, 256, 0⟩),
      .loadItem .office 1 (.fields ⟨0, 0, 0, 0, 0, 0, 65536⟩), .withdrawItem .office 1 (.fields 65536),
      .loadModifier .office 1 (.fields ⟨256, 0⟩), .loadModifier .office 1 (.fields ⟨0, 32768⟩),
      .loadModifier .office 1 (.fields ⟨0, -32769⟩), .setTaxRate .office 1 (.fields ⟨256, 0⟩),
      .setTaxRate .office 1 (.fields ⟨0, 65536⟩), .setGroupPriority .office 1 (.fields ⟨256, 0⟩),
      .setGroupPriority .office 1 (.fields ⟨0, 256⟩), .setCount .office 1 (.fields ⟨65536, 0⟩),
      .setCount .office 1 (.fields ⟨0, 65536⟩), .availability .office 1 (.fields 65536),
      .setPort .office 1 (.fields ⟨256, 0, none, false, false⟩), .setPort .office 1 (.fields ⟨0, 256, none, false, false⟩),
      .setPort .office 1 (.fields ⟨0, 0, some 256, false, false⟩), .setMask .office 1 (.fields 65536),
      .setClock .office 1 (.fields 4294967296)] : List Instr).all (fun c => !c.wellFormed) = true := by decide +kernel

/-! ### Frames -/

/-- The CRC of the nine characters of R174. -/
theorem test_crc_of_nine_digits :
    crc16 ([0x31, 0x32, 0x33, 0x34, 0x35, 0x36, 0x37, 0x38, 0x39] : List Byte) = 0x29B1#16 := by decide +kernel

/-- SET_SERVICE of tab 1,000 at 1,800 bp with tag 7, written out from R172 and R178: the start byte, the length, the tag, the
kind, two fields low byte first. -/
theorem test_setService_frame :
    let counted : List Byte := [6, 7, 0x09, 0xE8, 0x03, 0x08, 0x07]
    commandOf .office (0xC3#8 :: (counted ++ crcBytes (crc16 counted)))
      = some (.setService .office 7 (.fields ⟨1000, 1800⟩)) := by decide +kernel

/-- A modifier delta of −1 is two's complement, and a body with a byte left over cannot be read (R176, R178). -/
theorem test_loadModifier_bodies :
    received .office [1, 0x42, 5, 0xFF, 0xFF] = some (.loadModifier .office 1 (.fields ⟨5, -1⟩))
      ∧ received .office [1, 0x42, 5, 0xFF, 0xFF, 0] = some (.loadModifier .office 1 (.unread [5, 0xFF, 0xFF, 0]))
      ∧ received .office [0, 0x42, 5, 0xFF, 0xFF] = some (.badTagOrKind .office 0 ⟨0x42, [5, 0xFF, 0xFF]⟩) := by decide +kernel

/-- The reply waiting for the office, byte by byte as the position moves on: the start byte, the length, the tag, the reply kind,
the status OK; with its last byte the slot empties (R172, R175). -/
theorem test_miso_carries_reply :
    let s := { State.reset with replySlot := some (.reply 7 0xD3 .ok [.stamp 9]) }
    let at_ (n : Nat) : State := clockReply n s
    (List.range 9).map (fun n => (at_ n).misoByte) = [0xC3, 7, 7, 0xD3, 0, 9, 0, 0, 0] ∧ (at_ 10).replyPosition = 10
      ∧ (at_ 11).replySlot = none ∧ (at_ 11).misoByte = 0 := by
  decide +kernel

/-- A STATUS request of 6 bytes while the office reads a reply of 11: clocked in together with the last 6 it is taken, one byte
earlier it is dropped with the reply kept (R175). -/
theorem test_office_overlap :
    let at_ (n : Nat) : State := { State.reset with replySlot := some (.reply 7 0xD3 .ok [.stamp 9]), replyPosition := n }
    let after (n : Nat) : Option State :=
      match exec (.status .office 9 (.fields ())) (at_ n) with
      | .next t => some t
      | .fault _ | .refused _ => none
    (after 5).map (fun t => (t.misoByte, t.replyPosition, t.officeEvents)) = some (0xC3, 0, 0)
      ∧ (after 4).map (fun t => (t.replySlot, t.replyPosition, t.officeEvents))
        = some ((at_ 4).replySlot, 10, eventBit .frameError) := by decide +kernel

/-! ### The split arithmetic, by the worked cases of 07_split_arithmetic.md -/

/-- Worked case A. -/
theorem test_split_case_A :
    let inputs : SplitInputs :=
      { lines := [⟨1299, 0, 1⟩, ⟨1450, 0, 2⟩, ⟨1900, 1, 2⟩, ⟨950, 1, 3⟩, ⟨1375, 0, 0⟩], rates := #v[800, 1000, 0, 0]
        service := 1800 }
    (splitFigures (.bySeat []) inputs).map (fun g => (g.lead, g.taxes.get 0, g.service, g.due))
      = [(1, 141, 316, 2215), (2, 153, 685, 4836), (3, 36, 254, 1793)] ∧ (tabTotals inputs).total = 8844 := by
  decide +kernel

/-- Worked case B, with its tie. -/
theorem test_split_case_B :
    (splitFigures (.even 3) { lines := [⟨1000, 0, 1⟩], rates := #v[800, 0, 0, 0], service := 0 }).map
      (fun g => (g.bases.get 0, g.taxes.get 0, g.due)) = [(334, 27, 361), (333, 27, 360), (333, 26, 359)] := by
  decide +kernel

/-- The largest sum of class taxes the chapter works out. -/
theorem test_class_taxes_round_up :
    ((tabTotals
      { lines := [⟨2, 0, 0⟩, ⟨2, 1, 0⟩, ⟨2, 2, 0⟩, ⟨49999994, 3, 0⟩], rates := #v[2500, 2500, 2500, 2500], service := 2500 }).taxes).toList.sum
      = 12500002 := by decide +kernel

/-! ### A venue to test on: tabs 1 (OPEN), 2 (SETTLING) and 3 (OPEN, with a PIN), tills 0, 1 and 4, stations 0 and 1 -/

def till : PortEntry := { PortEntry.blank with role := .till, notices := true }

def atStation (st : StationNo) : PortEntry :=
  { PortEntry.blank with role := .station, bound := some st, notices := true }

def line (group : GroupNo) (state : LineState) (ticket : Option Nat) : Line :=
  { item := 0, quantity := 3, seat := 0, mods := [], price := 500, taxClass := 0, station := 0, group := group
    state := state, comped := false, pending := none, ticket := ticket }

def ticket (n seq : Nat) (lines : List Nat) (late : Option Nat) : Ticket :=
  { number := n, tab := 1, home := 0, rerouted := false, group := 0, seq := seq, firedAt := 0, late := late
    lateFlag := false, lines := lines }

def share (index due paid : Nat) (tenders : List Tender) : Share :=
  { tab := 2, index := index, paid := paid, tenders := tenders, state := if paid = due then .paid else .due
    figures :=
      { lead := 0, members := [], bases := #v[due, 0, 0, 0], taxes := #v[0, 0, 0, 0], service := 0, due := due } }

def chips : Item := { Item.blank with state := .listed, price := 500, count := 40, reserved := 36 }

def tab1 : Tab :=
  { Tab.blank with
    number := 1, state := .opened, opener := some 0, unlocked := [0], followers := [0, 2], base := 7500, live := 2
    lines := [line 0 .entered none, line 0 .fired (some 10), line 0 .fired (some 10), line 1 .fired (some 11),
      line 0 .served (some 12), line 0 .voided none] }

def totals : Totals := { bases := #v[150, 0, 0, 0], taxes := #v[0, 0, 0, 0], service := 0, total := 150 }

def whole : SplitRef := { mode := .even, count := 2, refs := [5, 7], totals := some totals }

def tab2 : Tab :=
  { Tab.blank with
    number := 2, state := .settling, opener := some 0, unlocked := [0], followers := [4], base := 1500
    lines := [line 0 .served none], owner := some 0, claim := some 5, split := some whole }

def tab3 : Tab :=
  { Tab.blank with
    number := 3, state := .opened, opener := some 1, pin := some 1234, wrongTries := 2, unlocked := [1]
    followers := [1] }

def grill : Station :=
  { Station.blank with
    state := .opened, port := some 2, threshold := 60, alternate := some 1, queue := [ticket 10 5 [2, 3] (some 60)]
    inWork := some (ticket 11 4 [4] (some 60)), recalls := [ticket 12 3 [5] none], rail := (some 10, none) }

def part30 : Share := share 1 100 30 [⟨.cash, 30, 30, 0⟩]

def unpaid : Share := share 2 50 0 []

def paidUp : Share := share 2 50 50 [⟨.card, 50, 50, 0⟩]

def venue : State :=
  { State.reset with
    ports := (((((State.reset.ports.set 0 till).set 1 { till with supervisor := true }).set 2 (atStation 0)).set 3
      (atStation 1)).set 4 { till with notices := false, transmit := [.notice 1, .notice 2] })
    stations := (State.reset.stations.set 0 grill).set 1 { Station.blank with state := .opened, port := some 3 }
    items := (State.reset.items.set 0 chips).set 1 { chips with mode := .unlimited, count := 0, reserved := 0 }
    rates := #v[800, 0, 0, 0]
    modifiers := State.reset.modifiers.set 7 (some (-9999))
    tabs := ((State.reset.tabs.set 0 tab1).set 1 tab2).set 2 tab3
    shares := (State.reset.shares.set 5 (.held part30)).set 7 (.held unpaid)
    tabCounter := 4, ticketCounter := 20, fireSeq := 6, approvalCounter := 7, clock := 1000 }

/-- The venue with the token at a port. -/
def heldBy (p : Port) : State := { venue with token := p }

/-- The venue with one approval entry waiting. -/
def asked (ask : Ask) (tab : Nat) : State :=
  { venue with approvals := [{ number := 3, ask := ask, requester := 0, tab := tab, reason := 1, queuedAt := 0 }] }

/-- The venue with one line of tab 1 marked by approval 3. -/
def marked (n : Nat) (x : Line) (s : State) : State :=
  s.modifyTab 0 fun t => t.setLine n { x with pending := some 3 }

/-- The state a command leads to. -/
def after (c : Instr) (s : State) : State :=
  match exec c s with
  | .next t => t
  | .fault _ | .refused _ => s

/-- The status of the last frame sent on a lane, if it is a reply. -/
def statusAt (l : Lane) (s : State) : Option Status :=
  match (s.port l).transmit.getLast? with
  | some (.reply _ _ st _) => some st
  | some (.notice _) | none => none

/-! ### One step each -/

/-- The fifth row of the worked example of 01_catalogue_counts_and_groups.md: 36 of 40 chips promised, 4 more, and the item is
out; the event reaches every till. -/
theorem test_addLine_makes_item_out :
    let t := after (.addLine (.lane 0) 9 (.fields ⟨1, 0, some 4, some 1, []⟩)) venue
    (t.item 0).out = true ∧ (t.item 0).reserved = 40 ∧ (t.port 1).events = eventBit .availabilityChanged := by
  decide +kernel

/-- The fourth row: a quantity of 5 with 4 available. -/
theorem test_addLine_sold_out :
    statusAt 0 (after (.addLine (.lane 0) 9 (.fields ⟨1, 0, some 5, some 1, []⟩)) venue) = some .soldOut := by decide +kernel

/-- A count of 20 is brought up to the 36 reserved (R10). -/
theorem test_setCount_clamped :
    let t := after (.setCount (.lane 2) 9 (.fields ⟨0, 20⟩)) venue
    (t.item 0).count = 36 ∧ (t.port 2).transmit.head? = some (.reply 9 0xC5 .clamped
      [.code 1, .count 36, .count 36, .available (some 0)]) := by decide +kernel

/-- The third wrong PIN locks the tab out (R53). -/
theorem test_unlock_locks_out :
    ((after (.unlock (.lane 0) 9 (.fields ⟨3, some 4321⟩)) venue).tab 2).wrongTries = 3 := by decide +kernel

/-- A line on a QUEUED ticket is pulled back and its ticket keeps the other (R38, R78). -/
theorem test_voidLine_pulls_back :
    let t := after (.voidLine (.lane 0) 9 (.fields ⟨1, 2⟩)) venue
    (t.station 0).queue.map Ticket.lines = [[3]] ∧ (t.item 0).count = 43 ∧ (t.tab 0).base = 6000 := by decide +kernel

/-- A fire gives the one ENTERED line a ticket at the end of its queue (R69). -/
theorem test_fire_makes_ticket :
    let t := after (.fire (.lane 0) 9 (.fields ⟨1, none⟩)) venue
    (t.station 0).queue.map Ticket.number = [10, 20] ∧ (t.item 0).count = 37 ∧ (t.tab 0).live = 3 := by decide +kernel

/-- TAKE with a ticket in hand sets that aside (R94). -/
theorem test_take_sets_aside :
    let t := after (.take (.lane 2) 9 (.fields ())) venue
    ((t.station 0).inWork.map Ticket.number, (t.station 0).stack.map Ticket.number) = (some 10, [11]) := by decide +kernel

theorem test_bump_serves_lines :
    let t := after (.bump (.lane 2) 9 (.fields ())) venue
    (t.tab 0).lines.map Line.state = [.entered, .fired, .fired, .served, .served, .voided]
      ∧ (t.station 0).recalls.map Ticket.number = [11, 12] := by decide +kernel

/-- Cash over what remains is change, and the share is PAID (R156). -/
theorem test_tender_cash_change :
    let t := after (.tender (.lane 0) 9 (.fields ⟨2, 1, 1, some 100, none⟩)) venue
    (t.port 0).transmit.head? = some (.reply 9 0xB2 .ok
      [.small 1, .amount 70, .amount 30, .amount 0, .amount 100, .amount 0, .code 1, .flag false]) := by decide +kernel

theorem test_tender_card_over_due :
    statusAt 0 (after (.tender (.lane 0) 9 (.fields ⟨2, 1, 0, some 71, none⟩)) venue) = some .overDue := by decide +kernel

/-- An event to a port with notices on is latched with one notice; with notices off it is latched alone (R180). -/
theorem test_notices :
    ((after (.setService .office 8 (.fields ⟨1, 0⟩)) venue).port 0).transmit = [.notice (eventBit .tabChanged)]
      ∧ (let t := after (.tender (.lane 0) 9 (.fields ⟨2, 1, 0, some 70, none⟩)) venue
         (t.port 4).events = eventBit .tabChanged ∧ (t.port 4).transmit.length = 2) := by decide +kernel

/-- A lane whose list holds six frames does not take a request (R167). -/
theorem test_full_list_drops_request :
    let s := venue.setPort 0 { till with transmit := List.replicate 6 (.notice 1) }
    let t := after (.fire (.lane 0) 9 (.fields ⟨1, none⟩)) s
    (t.port 0).events = eventBit .frameError ∧ t.tabs = s.tabs := by decide +kernel

/-! ### Witnesses: for each statement with hypotheses, states and operands that meet them, clause by clause -/

theorem witness_StepTakesFrontCommand :
    ({ venue with pending := [.secondTick, .powerOn] } : State).pending = .secondTick :: [.powerOn] ∧ venue.pending = [] :=
  ⟨rfl, rfl⟩

theorem witness_PowerAndReset :
    officeReady 255 venue = true
      ∧ ({ venue with resetPin := true } : State).resetPin = true
        ∧ Instr.secondTick ∉ [Instr.powerOn, Instr.resetPin, Instr.resetPinAsserted] := by decide +kernel

theorem witness_SecondTickCounts : venue.resetPin = false ∧ ({ venue with clock := 4294967295 } : State).resetPin = false :=
  ⟨rfl, rfl⟩

/-- The venue with ticket 10 due to become late. -/
def lateVenue : State := venue.setStation 0 { grill with queue := [ticket 10 5 [2, 3] (some 0)] }

theorem witness_LateExpiryMarksTicket :
    lateVenue.resetPin = false ∧ lateVenue.findLive 10 = some (0, .queued, ticket 10 5 [2, 3] (some 0))
      ∧ (ticket 10 5 [2, 3] (some 0)).late = some 0
      ∧ lateVenue.findTab (ticket 10 5 [2, 3] (some 0)).tab = some 0 := by decide +kernel

/-- The venue with the claim on tab 2 run out. -/
def lapsing : State := venue.setTab 1 { tab2 with claim := some 0 }

/-- The same with no tender standing. -/
def lapsingBare : State := lapsing.setShare 5 (.held (share 1 100 0 []))

/-- An approval entry of till 0 or 4. -/
def entry (n : Nat) (ask : Ask) (tab : Nat) (l : Lane) : Entry :=
  { number := n, ask := ask, requester := l, tab := tab, reason := 1, queuedAt := 0 }

/-- Three entries, two of them UNDO_TENDER entries of tab 2. -/
def undos : List Entry := [entry 255 (.undoTender 1) 2 0, entry 1 .pinClear 3 4, entry 4 (.undoTender 2) 2 4]

theorem witness_ClaimLapseEndsOwnership :
    (∀ s ∈ [lapsing, lapsingBare, { lapsingBare with approvals := undos }], s.resetPin = false ∧ s.findTab 2 = some 1
        ∧ (s.tab 1).claim = some 0 ∧ (s.tab 1).state = .settling ∧ (s.tab 1).owner = some 0)
      ∧ (lapsing.sharesOf (lapsing.tab 1)).any (fun sh => sh.tenders ≠ []) = true
      ∧ (lapsingBare.sharesOf (lapsingBare.tab 1)).any (fun sh => sh.tenders ≠ []) = false
      ∧ (lapsingBare.approvals.map Entry.number).Nodup ∧ (undos.map Entry.number).Nodup
      ∧ (({ lapsingBare with approvals := undos } : State).undosOf 2).length = 2 := by decide +kernel

/-- The venue with every port in a frame, every transmit list at six frames and a reply waiting for the office. -/
def busyWires : State :=
  { venue with
    ports := tableOf fun l => { venue.port l with receiver := .inFrame 2, transmit := List.replicate 6 (.notice 1) }
    officeReceiver := .inFrame 0, replySlot := some (.notice 1) }

theorem witness_BadFramesAreDropped :
    busyWires.resetPin = false ∧ 1 < 2 ∧ 250 < 251
      ∧ (2 ≤ (2#8 : Byte).toNat ∧ (2#8 : Byte).toNat ≤ 250 ∧ ([1#8, 0x2F#8] : List Byte).length = (2#8 : Byte).toNat
        ∧ crc16 (2#8 :: [1#8, 0x2F#8]) ≠ 0)
      ∧ ((0 = 0 ∨ 0x80 ≤ 1) ∧ (1 = 0 ∨ 0x80 ≤ 0x80))
      ∧ ((busyWires.port 15).receiver = .inFrame 2 ∧ 2 ≤ 2)
      ∧ busyWires.officeReceiver = .inFrame 0 ∧ 6 ≤ (busyWires.port 0).transmit.length
      ∧ busyWires.replySlot = some (.notice 1)
      ∧ busyWires.replyPosition + (6 - busyWires.startCounted) < (frameBytes (.notice 1)).length := by decide +kernel

theorem witness_FramesBeginAndEnd :
    venue.resetPin = false ∧ (venue.port 15).receiver = .hunting ∧ venue.officeReceiver = .hunting
      ∧ (venue.port 4).transmit = .notice 1 :: [.notice 2]
      ∧ (∀ n ∈ [1, 2],
        (let s := { venue with replySlot := some (.notice 1), replyPosition := n }
         s.resetPin = false ∧ s.replySlot = some (.notice 1) ∧ requestOf .status .office 255 [] = .status .office 255 (.fields ())
          ∧ (n = 1 ↔ s.replyPosition + (0 + 6 - s.startCounted) < (frameBytes (.notice 1)).length))) := by
  decide +kernel

theorem witness_FramesBeginAndEnd_unknown_kind :
    1 ≠ 0 ∧ 0x7F < 0x80 ∧ (∀ k, kindCode k ≠ 0x7F) ∧ overdue (.lane 0) venue = false
      ∧ congested (.lane 0) venue = false := by
  refine ⟨by decide, by decide, fun k => ?_, by decide +kernel, by decide +kernel⟩
  cases k <;> decide

/-- The venue with a SPLIT of till 0 awaiting its reply. -/
def awaiting : State := venue.setPort 0 { till with outstanding := some (3, .split) }

theorem witness_RequestsTurnedAway :
    (∀ s ∈ [venue, awaiting], s.resetPin = false ∧ overdue (.lane 0) s = false ∧ congested (.lane 0) s = false)
      ∧ 255 ≠ 0 ∧ frameOf (requestOf .status (.lane 0) 255 [1]) = none
      ∧ (frameOf (requestOf .lock (.lane 0) 255 [1, 0]) ≠ none ∧ awaitsReply (.lane 0) awaiting = true)
      ∧ (frameOf (requestOf .status (.lane 0) 255 []) ≠ none ∧ awaitsReply (.lane 0) venue = false
        ∧ mayRequest (.lane 0) .status venue = false) := by decide +kernel

theorem witness_FrameRoundTrip :
    let c : Instr := .addLine (.lane 15) 255 (.fields ⟨9999, 511, some 99, none, List.replicate 240 63⟩)
    c.wellFormed = true ∧ portOf c = some (.lane 15) ∧ (frameOf c).isSome = true := by decide +kernel

theorem witness_SetPortKeepsStanding :
    officeReady 1 (heldBy (.lane 1)) = true
      ∧ (15 < (⟨16, 0, none, false, false⟩ : SetPortFields).port ∧ 2 < (⟨15, 3, none, false, false⟩ : SetPortFields).role)
      ∧ (let f : SetPortFields := ⟨15, 2, some 8, false, false⟩
         f.role = 2 ∧ (f.station = none ∨ ∃ n, f.station = some n ∧ 7 < n))
      ∧ (let f : SetPortFields := ⟨15, 1, some 7, false, false⟩
         f.role ≠ 2 ∧ f.station ≠ none)
      ∧ (let f : SetPortFields := ⟨1, 1, none, false, true⟩
         f.port = (1 : Lane).val ∧ f.role = roleCode ((heldBy (.lane 1)).port 1).role
           ∧ f.station = ((heldBy (.lane 1)).port 1).bound.map Fin.val
           ∧ (((heldBy (.lane 1)).port 1).bound.isSome = true ↔ ((heldBy (.lane 1)).port 1).role = .station)) :=
  ⟨by decide +kernel, by decide, ⟨rfl, .inr ⟨8, rfl, by decide⟩⟩, by decide, by decide +kernel⟩

theorem witness_SetPortChangesStanding :
    officeReady 1 venue = true ∧ venue.token ≠ .lane 4 ∧ (∀ i, (venue.tab i).owner ≠ some 4)
      ∧ (let f : SetPortFields := ⟨4, 0, none, true, true⟩
         f.port = (4 : Lane).val ∧ Role.off ≠ .station ∧ f.role = roleCode .off ∧ f.station = none
           ∧ Role.off ≠ (venue.port 4).role)
      ∧ ((venue.port 4).role ≠ .station ∧ (venue.station 7).port = none ∧ (venue.station 0).port ≠ none
        ∧ (venue.station 0).port ≠ some 4) := by decide +kernel

theorem witness_PortResetClears :
    officeReady 1 venue = true ∧ resetLane ⟨0, 2, some 7, false, true⟩ venue = some 0
      ∧ exec (.setPort .office 1 (.fields ⟨0, 2, some 7, false, true⟩)) venue
        = .next (after (.setPort .office 1 (.fields ⟨0, 2, some 7, false, true⟩)) venue) :=
  ⟨by decide +kernel, by decide +kernel, rfl⟩

theorem witness_EventsAndMask :
    joinReady 0 255 venue = true ∧ officeReady 255 venue = true ∧ 65535 < 65536 := by decide +kernel

theorem witness_ClockAndStatus : officeReady 255 venue = true ∧ 4294967295 < 4294967296 := by decide +kernel

theorem witness_LoadItemReplacesRecord :
    let f : LoadItemFields := ⟨511, 99999, 3, 7, 7, 1, 65535⟩
    officeReady 1 venue = true ∧ f.item = (511 : ItemNo).val ∧ f.price ≤ 99999 ∧ f.taxClass = (3 : TaxClass).val
      ∧ f.station = (7 : StationNo).val ∧ f.group = (7 : GroupNo).val ∧ f.mode ≤ 1 := by decide +kernel

theorem witness_WithdrawAndCount :
    officeReady 1 venue = true ∧ (venue.item 0).state = .listed ∧ (venue.item 0).state ≠ .absent
      ∧ anyReady .office 1 venue = true
      ∧ (anyReady (.lane 1) 1 (heldBy (.lane 1)) = true ∧ (heldBy (.lane 1)).token = .lane 1)
      ∧ (anyReady (.lane 2) 1 venue = true ∧ (venue.port 2).role = .station
        ∧ (venue.port 2).bound = some (venue.item 0).station) := by decide +kernel

theorem witness_CatalogueTablesAreReplaced :
    officeReady 1 venue = true ∧ ((-9999 : Int) ≤ -9999 ∧ (9999 : Int) ≤ 9999) ∧ (63 < 64 ∨ (0 : Int) < -9999)
      ∧ (9999 : Int) < 10000 ∧ (-10000 : Int) < -9999 ∧ 2500 ≤ 2500 ∧ 3 < 4 ∧ 2500 < 2501 := by decide +kernel

theorem witness_AvailabilityPage :
    anyReady (.lane 2) 1 venue = true ∧ anyReady .office 1 venue = true ∧ ¬511 < 511 ∧ 511 < 512
      ∧ (laneReady 15 1 venue = true ∧ (venue.port 15).role = .off) := by decide +kernel

theorem witness_OpenTabFillsSlot :
    (∀ s ∈ [{ venue with tabCounter := 9999 }, { venue.setTab 0 { tab1 with number := 9999 } with tabCounter := 9999 }],
        tillReady 0 1 s = true ∧ (s.tab 3).state = .free ∧ (∀ j : Slot, j < 3 → (s.tab j).state ≠ .free)
          ∧ 1 ≤ s.tabCounter ∧ s.tabCounter ≤ 9999)
      ∧ (⟨2500, some 999999⟩ : OpenTabFields).service ≤ 2500
      ∧ (∀ n, (⟨2500, some 999999⟩ : OpenTabFields).pin = some n → n ≤ 999999) :=
  ⟨by decide +kernel, by decide, by intro n h; cases h; decide⟩

theorem witness_TabAndShareViews :
    anyReady (.lane 2) 1 venue = true ∧ venue.findTab 1 = some 0 ∧ 64 ≤ 64
      ∧ (venue.findTab 2 = some 1 ∧ ((venue.tab 1).named (.lane 0)).split = some whole ∧ anyReady (.lane 0) 1 venue = true
        ∧ 24 ≤ 24 ∧ whole.totals = some totals ∧ venue.shareAt ((venue.tab 1).named (.lane 0)) 2 = some (7, unpaid))
      ∧ ({ whole with totals := none } : SplitRef).totals = none := by decide +kernel

theorem witness_AddLineEntersLine :
    let f : AddLineFields := ⟨1, 0, some 4, some 24, [7, 7]⟩
    tillReady 0 1 venue = true ∧ venue.findTab f.tab = some 0 ∧ (venue.tab 0).pin = none ∧ (venue.tab 0).state = .opened
      ∧ (venue.tab 0).lines.length < 64 ∧ f.item = (0 : ItemNo).val ∧ (venue.item 0).state = .listed
      ∧ f.quantity = some 4 ∧ f.seat = some 24 ∧ f.mods.length ≤ 4
      ∧ f.mods.map (fun c => (fin? 64 c).bind fun m => venue.modifiers.get m) = [-9999, -9999].map some
      ∧ 4 ≤ (venue.item 0).count - (venue.item 0).reserved
      ∧ (venue.tab 0).base + min (((venue.item 0).price : Int) + [-9999, -9999].sum).toNat 99999 * 4 ≤ 50000000 := by
  decide +kernel

theorem witness_VoidEnteredLine :
    (tillReady 0 1 venue = true ∧ venue.findTab 1 = some 0 ∧ (venue.tab 0).pin = none ∧ (venue.tab 0).state = .opened
      ∧ (venue.tab 0).lines[1 - 1]? = some (line 0 .entered none) ∧ (line 0 .entered none).pending = none)
      ∧ venue.findTab 10000 = none ∧ (venue.findTab 3 = some 2 ∧ (venue.tab 2).pin ≠ none ∧ (0 : Lane) ∉ (venue.tab 2).unlocked)
      ∧ (venue.findTab 2 = some 1 ∧ (venue.tab 1).pin = none ∧ (venue.tab 1).state = .settling)
      ∧ (let s := venue.setTab 1 { tab2 with state := .exported }
         tillReady 0 1 s = true ∧ s.findTab 2 = some 1 ∧ (s.tab 1).state = .exported)
      ∧ ((0 = 0 ∨ (venue.tab 0).lines.length < 0) ∧ (7 = 0 ∨ (venue.tab 0).lines.length < 7)) := by
  decide +kernel

theorem witness_PullBackFromQueuedTicket :
    let x := line 0 .fired (some 10)
    (∀ q ∈ [(venue, [2, 3]), (venue.setStation 0 { grill with queue := [ticket 10 5 [2] (some 60)] }, [2])],
        let s : State := q.1
        let tk := ticket 10 5 q.2 (some 60)
        tillReady 0 1 s = true ∧ s.findTab 1 = some 0 ∧ (s.tab 0).pin = none ∧ (s.tab 0).state = .opened
          ∧ (s.tab 0).lines[2 - 1]? = some x ∧ s.findLive 10 = some (0, .queued, tk)
          ∧ (∀ y ∈ (s.station 0).stack ++ (s.station 0).inWork.toList, y.number ≠ 10)
          ∧ (∀ y ∈ (s.station 0).queue, y.number = 10 → y = tk))
      ∧ x.pending = none ∧ x.ticket = some 10 ∧ (3 ∈ [2, 3] ∧ 3 ≠ 2) ∧ (∀ other ∈ [2], other = 2) := by decide +kernel

/-- The venue with the approval counter at its end and the first two numbers from there in use. -/
def crowded : State := { venue with approvalCounter := 255, approvals := [entry 255 .pinClear 3 0, entry 1 .pinClear 3 0] }

theorem witness_VoidInWorkIsQueued :
    let x := line 1 .fired (some 11)
    (∀ q ∈ [(crowded, [4]), ({ crowded with approvals := List.replicate 16 (entry 9 .pinClear 3 0) }, [4]),
          (heldBy (.lane 0), [4]),
          ((heldBy (.lane 0)).setStation 0 { grill with inWork := some (ticket 11 4 [3, 4] (some 60)) }, [3, 4])],
        let s : State := q.1
        tillReady 0 1 s = true ∧ s.findTab 1 = some 0 ∧ (s.tab 0).pin = none ∧ (s.tab 0).state = .opened
          ∧ (s.tab 0).lines[4 - 1]? = some x ∧ s.findLive 11 = some (0, .inWork, ticket 11 4 q.2 (some 60)))
      ∧ x.pending = none ∧ x.ticket = some 11 ∧ TicketState.inWork ≠ .queued
      ∧ (crowded.token ≠ .lane 0 ∧ crowded.approvals.length < 16 ∧ 1 ≤ crowded.approvalCounter
        ∧ crowded.approvalCounter ≤ 255)
      ∧ (heldBy (.lane 0)).token = .lane 0 ∧ (3 ∈ [3, 4] ∧ 3 ≠ 4) ∧ (∀ other ∈ [4], other = 4) := by decide +kernel

theorem witness_FirstFrom_approvals : FirstFrom 255 crowded.numberAsked crowded.approvalCounter 2 := by
  refine ⟨2, ?_⟩
  unfold State.numberAsked
  decide +kernel

theorem witness_inHand :
    (heldBy (.lane 0)).inHand 0 (ticket 11 4 [4] (some 60))
      ∧ ((heldBy (.lane 0)).setStation 0 { grill with inWork := some (ticket 11 4 [3, 4] (some 60)) }).inHand 0
        (ticket 11 4 [3, 4] (some 60)) := by
  unfold State.inHand
  decide +kernel

theorem witness_CompLineApplied :
    let s := heldBy (.lane 0)
    let x := line 1 .fired (some 11)
    tillReady 0 1 s = true ∧ s.findTab 1 = some 0 ∧ (s.tab 0).pin = none ∧ (s.tab 0).state = .opened
      ∧ (s.tab 0).lines[4 - 1]? = some x ∧ 15 ≤ 15 ∧ x.pending = none ∧ x.state ≠ .voided ∧ x.comped = false
      ∧ s.token = .lane 0 := by decide +kernel

theorem witness_OverridePriceAppliedOrQueued :
    let x := line 1 .fired (some 11)
    (∀ s ∈ [heldBy (.lane 0), crowded], tillReady 0 1 s = true ∧ s.findTab 1 = some 0 ∧ (s.tab 0).pin = none
        ∧ (s.tab 0).state = .opened ∧ (s.tab 0).lines[4 - 1]? = some x
        ∧ (s.tab 0).base - x.price * x.quantity + min 100000 99999 * x.quantity ≤ 50000000)
      ∧ 15 ≤ 15 ∧ x.pending = none ∧ x.state ≠ .voided ∧ (heldBy (.lane 0)).token = .lane 0 ∧ crowded.token ≠ .lane 0
      ∧ crowded.approvals.length < 16 ∧ 1 ≤ crowded.approvalCounter ∧ crowded.approvalCounter ≤ 255 := by decide +kernel

theorem witness_FollowersAndService :
    venue.findTab 1 = some 0 ∧ joinReady 3 1 venue = true ∧ (3 : Lane) ∉ (venue.tab 0).followers
      ∧ (venue.tab 0).followers.length < 4 ∧ officeReady 1 venue = true ∧ (venue.tab 0).state = .opened
      ∧ 2500 ≤ 2500 := by decide +kernel

theorem witness_UnlockCountsTries :
    tillReady 0 1 venue = true ∧ venue.findTab 3 = some 2 ∧ (venue.tab 2).pin = some 1234 ∧ 999999 ≤ 999999
      ∧ (venue.tab 2).wrongTries < 3 := by decide +kernel

theorem witness_LockLeavesUnlockSet :
    tillReady 0 1 venue = true ∧ venue.findTab 10000 = none ∧ venue.findTab 2 = some 1 ∧ venue.findTab 3 = some 2 := by
  decide +kernel

/-- The venue with tab 3 locked out and the token at till 0. -/
def lockedOut : State := (heldBy (.lane 0)).setTab 2 { tab3 with wrongTries := 3 }

theorem witness_PinAndLockout :
    (tillReady 0 1 venue = true ∧ venue.findTab 1 = some 0 ∧ ((venue.tab 0).named (.lane 0)).pin = none
        ∧ ((venue.tab 0).named (.lane 0)).state = .opened ∧ ((venue.tab 0).named (.lane 0)).wrongTries ≠ 3)
      ∧ (∀ x, some 999999 = some x → x ≤ 999999)
      ∧ (tillReady 0 1 lockedOut = true ∧ lockedOut.findTab 3 = some 2 ∧ 15 ≤ 15
        ∧ ((lockedOut.tab 2).named (.lane 0)).wrongTries = 3 ∧ lockedOut.token = .lane 0
        ∧ (∀ e ∈ lockedOut.approvals, e.tab ≠ ((lockedOut.tab 2).named (.lane 0)).number ∨ e.ask ≠ .pinClear)) :=
  ⟨by decide +kernel, by intro x h; cases h; decide, by decide +kernel⟩

/-- The venue with the counters of a fire at their ends. -/
def wrapping : State := { venue with ticketCounter := 65535, fireSeq := 4294967295 }

/-- The same with the grill closed, and 65535 on a live ticket. -/
def rerouting : State :=
  wrapping.setStation 0 { grill with state := .closed, queue := [], inWork := some (ticket 65535 4 [4] (some 60)) }

theorem witness_FireOneLine :
    (∀ s ∈ [wrapping, rerouting], tillReady 0 1 s = true ∧ s.findTab 1 = some 0 ∧ (s.tab 0).pin = none
        ∧ (s.tab 0).state = .opened ∧ (s.tab 0).lines[0]? = some (line 0 .entered none) ∧ s.occupancy < 256
        ∧ 1 ≤ s.ticketCounter ∧ s.ticketCounter ≤ 65535
        ∧ ∀ q ∈ (s.tab 0).lines.zipIdx, q.1.state = .entered → q.2 = 0)
      ∧ ((wrapping.station 0).state ≠ .closed ∧ (wrapping.station 0).queue.length < 64)
      ∧ ((rerouting.station 0).state = .closed ∧ (rerouting.station 0).alternate = some 1
        ∧ (rerouting.station 1).state ≠ .closed ∧ (rerouting.station 1).queue.length < 64) := by decide +kernel

theorem witness_FireOneLine_only_line (j : Nat) (y : Line) (h : (wrapping.tab 0).lines[j]? = some y)
    (he : y.state = .entered) : j = 0 := by
  have hall : ∀ q ∈ (wrapping.tab 0).lines.zipIdx, q.1.state = .entered → q.2 = 0 := by decide +kernel
  exact hall (y, j) (List.mk_mem_zipIdx_iff_getElem?.mpr h) he

theorem witness_FirstFrom_tickets :
    FirstFrom 65535 wrapping.numberOnTicket wrapping.ticketCounter 65535
      ∧ FirstFrom 65535 rerouting.numberOnTicket rerouting.ticketCounter 1 := by
  refine ⟨⟨0, ?_⟩, ⟨1, ?_⟩⟩ <;> unfold State.numberOnTicket <;> decide +kernel

/-- The venue with nine ENTERED lines of one partition on tab 1 and a tenth of another. -/
def crowdedTab : State :=
  venue.setTab 0 { tab1 with lines := List.replicate 9 (line 0 .entered none) ++ [line 1 .entered none] }

/-- Ten ENTERED lines make three tickets, the first of eight lines (R70, R71). -/
theorem test_fire_cuts_at_eight :
    let t := after (.fire (.lane 0) 9 (.fields ⟨1, none⟩)) crowdedTab
    ((t.station 0).queue.drop 1).map Ticket.lines = [[1, 2, 3, 4, 5, 6, 7, 8], [9], [10]] := by decide +kernel

/-- What a FIRE in each of its cases meets: nothing to fire, a home station and alternate closed, a full pool, a full queue, and
room. -/
theorem witness_FireIsWholeOrNothing_cases :
    (∀ s ∈ [venue, crowdedTab, crowdedTab.setStation 0 { grill with state := .closed, alternate := none },
          crowdedTab.setStation 5 { Station.blank with queue := List.replicate 252 (ticket 99 1 [] none) },
          crowdedTab.setStation 0 { grill with queue := List.replicate 62 (ticket 99 1 [] none) }],
        tillReady 0 1 s = true ∧ s.findTab 1 = some 0 ∧ (s.tab 0).pin = none ∧ (s.tab 0).state = .opened)
      ∧ ([7].length ≤ 8 ∧ ∀ g ∈ [7], g ≤ 7)
      ∧ ((venue.tab 0).lines.filter fun x => x.state = .entered && [7].contains x.group.val) = []
      ∧ (crowdedTab.station 0).state ≠ .closed
      ∧ 256 - crowdedTab.occupancy = 254
      ∧ 256 - (crowdedTab.setStation 5 { Station.blank with queue := List.replicate 252 (ticket 99 1 [] none) }).occupancy = 2
      ∧ 62 + 2 ≤ 64 ∧ 64 < 62 + 3 ∧ crowdedTab.fireSeq < 4294967296 := by decide +kernel

theorem witness_FireIsWholeOrNothing :
    venue.findTab 1 = some 0
      ∧ exec (.fire (.lane 0) 1 (.fields ⟨1, none⟩)) venue = .next (after (.fire (.lane 0) 1 (.fields ⟨1, none⟩)) venue) :=
  ⟨by decide +kernel, rfl⟩

theorem witness_StationReads : stationReady 2 0 1 venue = true ∧ 74 ≤ 74 := by decide +kernel

/-- The venue with station 0 changed. -/
def grillAs (x : Station) : State := venue.setStation 0 x

theorem witness_TakeAndResume :
    (∀ s ∈ [venue, grillAs { grill with queue := [] }, grillAs { grill with stack := [ticket 14 1 [4] none, ticket 15 2 [4] none] },
        grillAs { grill with inWork := none, stack := [ticket 14 1 [4] none] }], stationReady 2 0 1 s = true)
      ∧ (grillAs { grill with queue := [] }).dispatch 0 = []
      ∧ (let s := grillAs { grill with stack := [ticket 14 1 [4] none, ticket 15 2 [4] none] }
         s.dispatch 0 = [ticket 10 5 [2, 3] (some 60)] ∧ (s.station 0).inWork ≠ none ∧ 2 ≤ (s.station 0).stack.length)
      ∧ (venue.dispatch 0 = [ticket 10 5 [2, 3] (some 60)] ∧ (venue.station 0).stack.length < 2)
      ∧ (let s := grillAs { grill with inWork := none, stack := [ticket 14 1 [4] none] }
         (s.station 0).inWork = none ∧ (s.station 0).stack = [ticket 14 1 [4] none])
      ∧ (venue.station 0).inWork ≠ none := by decide +kernel

theorem witness_BumpServesTicket :
    (stationReady 2 0 1 (grillAs { grill with inWork := none }) = true
        ∧ ((grillAs { grill with inWork := none }).station 0).inWork = none)
      ∧ (stationReady 2 0 1 venue = true ∧ (venue.station 0).inWork = some (ticket 11 4 [4] (some 60))
        ∧ venue.findTab (ticket 11 4 [4] (some 60)).tab = some 0 ∧ (venue.tab 0).state ≠ .exported) := by decide +kernel

theorem witness_BumpFreesExportedTab :
    let s := venue.setTab 0 { tab1 with state := .exported, live := 1 }
    stationReady 2 0 1 s = true ∧ (s.station 0).inWork = some (ticket 11 4 [4] (some 60))
      ∧ s.findTab (ticket 11 4 [4] (some 60)).tab = some 0 ∧ (s.tab 0).state = .exported ∧ (s.tab 0).live = 1 := by
  decide +kernel

theorem witness_RecallReturnsTicket :
    stationReady 2 0 1 venue = true ∧ (venue.station 0).state ≠ .closed
      ∧ (venue.station 0).recalls.find? (fun y => y.number = 12) = some (ticket 12 3 [5] none) ∧ venue.occupancy < 256
      ∧ (venue.station 0).stack.length < 2 ∧ venue.findTab (ticket 12 3 [5] none).tab = some 0 := by decide +kernel

theorem witness_HoldLowPauseOpen :
    (∀ st ∈ [StationState.opened, .paused, .closed], stationReady 2 0 1 (grillAs { grill with state := st }) = true
        ∧ officeReady 1 (grillAs { grill with state := st }) = true
        ∧ ((grillAs { grill with state := st }).station 0).state = st) := by decide +kernel

theorem witness_SetStationConfigures :
    officeReady 1 venue = true ∧ (some 1 : Option StationNo) ≠ some 0
      ∧ ¬(StationState.opened = .closed ∧ (venue.station 0).state ≠ .closed)
      ∧ ((venue.station 0).state ≠ .closed ∧ (venue.station 0).inWork ≠ none)
      ∧ (let s := grillAs { grill with inWork := none }
         officeReady 1 s = true ∧ (s.station 0).state ≠ .closed ∧ (s.station 0).inWork = none ∧ (s.station 0).stack = []
           ∧ (s.station 0).queue ≠ [] ∧ (s.station 1).state ≠ .closed ∧ (s.station 5).state = .closed
           ∧ (s.station 1).queue.length + (s.station 0).queue.length ≤ 64)
      ∧ (let s := (grillAs { grill with inWork := none }).setStation 1
          { Station.blank with state := .paused, queue := List.replicate 64 (ticket 99 1 [] none) }
         officeReady 1 s = true ∧ (s.station 1).state ≠ .closed
           ∧ 64 < (s.station 1).queue.length + (s.station 0).queue.length)
      ∧ (let s := grillAs { grill with inWork := none, queue := [] }
         (s.station 0).queue = [] ∧ (s.station 0).inWork = none ∧ (s.station 0).stack = []) := by decide +kernel

theorem witness_TokenMovesAndQueueReads :
    (deskReady .office 1 venue = true ∧ venue.token = .office ∧ Port.office ≠ .lane 1 ∧ (venue.port 1).role = .till
        ∧ (venue.port 1).supervisor = true)
      ∧ (officeReady 1 (heldBy (.lane 1)) = true ∧ (heldBy (.lane 1)).token = .lane 1) ∧ officeReady 1 venue = true
      ∧ (deskReady (.lane 1) 1 (heldBy (.lane 1)) = true ∧ 15 ≤ 15) ∧ joinReady 2 1 venue = true := by decide +kernel

theorem witness_ApproveAppliesComp :
    let x := { line 0 .entered none with pending := some 3 }
    let s := marked 1 (line 0 .entered none) (asked (.comp 1) 1)
    deskReady .office 1 s = true ∧ s.token = .office
      ∧ s.approvals.find? (fun y => y.number = 3) = some (entry 3 (.comp 1) 1 0)
      ∧ s.findTab 1 = some 0 ∧ (s.tab 0).state = .opened ∧ (s.tab 0).lines[1 - 1]? = some x
      ∧ x.state ≠ .voided ∧ x.comped = false := by decide +kernel

/-- An entry of each other kind whose precondition holds, or fails. -/
theorem witness_ApproveAppliesComp_kinds :
    (∀ q ∈ [(Ask.price 1 99999, 1, (0 : Slot)), (.voidFired 4, 1, 0), (.pinClear, 3, 2), (.undoTender 1, 2, 1),
          (.undoTender 2, 2, 1)],
        let s := asked q.1 q.2.1
        deskReady .office 1 s = true ∧ s.token = .office
          ∧ s.approvals.find? (fun y => y.number = 3) = some (entry 3 q.1 q.2.1 0) ∧ s.findTab q.2.1 = some q.2.2)
      ∧ (let s := asked (.price 1 99999) 1
         (s.tab 0).lines[1 - 1]? = some (line 0 .entered none) ∧ (s.tab 0).state = .opened
           ∧ (s.tab 0).base - 500 * 3 + 99999 * 3 ≤ 50000000)
      ∧ (let s := (asked (.price 1 99999) 1).setTab 0 { tab1 with base := 50000000 }
         50000000 < (s.tab 0).base - 500 * 3 + 99999 * 3)
      ∧ (let s := asked (.voidFired 4) 1
         (s.tab 0).lines[4 - 1]? = some (line 1 .fired (some 11))
           ∧ s.findLive 11 = some (0, .inWork, ticket 11 4 [4] (some 60)))
      ∧ ((venue.tab 0).lines[5 - 1]? = some (line 0 .served (some 12)) ∧ (line 0 .served (some 12)).state ≠ .fired)
      ∧ ((venue.tab 0).lines[6 - 1]? = some (line 0 .voided none) ∧ (line 0 .voided none).state = .voided)
      ∧ (let s := asked (.undoTender 1) 2
         (s.tab 1).state = .settling ∧ s.shareAt (s.tab 1) 1 = some (5, part30)
           ∧ part30.tenders = [] ++ [⟨.cash, 30, 30, 0⟩])
      ∧ (let s := asked (.undoTender 2) 2
         (s.shareAt (s.tab 1) 2).elim [] (fun q => q.2.tenders) = []) := by decide +kernel

theorem witness_DenyAndWithdraw :
    let e : Entry := { number := 3, ask := .comp 1, requester := 0, tab := 1, reason := 1, queuedAt := 0 }
    let s := marked 1 (line 0 .entered none) (asked (.comp 1) 1)
    s.approvals.find? (fun y => y.number = e.number) = some e ∧ askLine e.ask = some 1 ∧ s.findTab e.tab = some 0
      ∧ (s.tab 0).lines[1 - 1]? = some { line 0 .entered none with pending := some 3 }
      ∧ (deskReady .office 1 s = true ∧ s.token = .office) ∧ joinReady e.requester 1 s = true
      ∧ ((2 : Lane) ≠ e.requester ∧ joinReady 2 1 s = true)
      ∧ (let u := asked .pinClear 3
         u.approvals.find? (fun y => y.number = 3) = some (entry 3 .pinClear 3 0) ∧ askLine .pinClear = none
           ∧ deskReady .office 1 u = true ∧ u.token = .office ∧ joinReady 0 1 u = true) := by decide +kernel

/-- A computation of a split of tab 2 into two. -/
def computation : Computation :=
  { job := { tab := 2, shape := .even 2, count := 2 }, refs := [5, 7]
    inputs := { lines := [⟨150, 0, 1⟩], rates := #v[800, 0, 0, 0], service := 100 } }

/-- The venue with every line of tab 1 served and the engine computing. -/
def computing : State :=
  { venue.setTab 0 { tab1 with lines := [line 0 .served (some 12)] } with computing := some computation }

/-- The same with the engine idle, and lines of three seats. -/
def idle : State :=
  { venue.setTab 0
      { tab1 with
        lines := [1, 2, 24].map (fun n => { line 0 .served (some 12) with seat := n }) ++ [line 0 .voided none] } with
    approvals := [entry 3 .pinClear 1 0] }

theorem witness_SplitIsAccepted :
    (∀ s ∈ [computing, idle], tillReady 0 1 s = true ∧ s.findTab 1 = some 0 ∧ (s.tab 0).pin = none
        ∧ (s.tab 0).state = .opened ∧ (∀ x ∈ (s.tab 0).lines, x.state ≠ .entered)
        ∧ (∀ e ∈ s.approvals, e.tab = 1 → askLine e.ask = none)
        ∧ 24 ≤ ((List.finRange 384).filter fun j => s.shares.get j = .free).length)
      ∧ computing.computing = some computation ∧ computing.waiting.length < 3 ∧ idle.computing = none ∧ idle.waiting = [] := by
  decide +kernel

theorem witness_SplitIsAccepted_bySeat :
    let map : List (Nat × Nat) := [(2, 24)]
    let lead (seat : Nat) : Nat := ((map.find? fun q => q.1 = seat).map Prod.snd).getD seat
    (map.length ≤ 24 ∧ (∀ q ∈ map, 1 ≤ q.1 ∧ q.1 ≤ 24 ∧ 1 ≤ q.2 ∧ q.2 ≤ 24 ∧ q.1 ≠ q.2 ∧ q.2 ∉ map.map Prod.fst)
        ∧ (map.map Prod.fst).Nodup)
      ∧ ((List.range' 1 24).filter fun t =>
          (idle.tab 0).lines.any fun x => x.state ≠ .voided && 1 ≤ x.seat && x.seat ≤ 24 && lead x.seat = t) = [1, 24] := by
  decide +kernel

theorem witness_SplitIsAccepted_even (e : Entry) (h : e ∈ computing.approvals) (_ : e.tab = 1) :
    e.ask = .pinClear ∨ ∃ k, e.ask = .undoTender k := by cases h

/-- The venue with that computation under way for tab 2. -/
def finishing : State :=
  { awaiting.setTab 1 { tab2 with claim := none, split := some { whole with totals := none } } with
    computing := some computation
    shares := (State.reset.shares.set 5 (.reserved 2)).set 7 (.reserved 2) }

theorem witness_SplitEngineWorks :
    (let s := { finishing with computing := none, waiting := [computation.job] }
     s.resetPin = false ∧ s.computing = none ∧ s.waiting = computation.job :: []
       ∧ s.findTab computation.job.tab = some 1 ∧ (s.tab 1).split = some { whole with totals := none })
      ∧ (finishing.resetPin = false ∧ finishing.computing = some computation
        ∧ finishing.findTab computation.job.tab = some 1
        ∧ (finishing.tab 1).split = some { whole with totals := none } ∧ whole.refs = computation.refs
        ∧ computation.refs.Nodup
        ∧ computation.refs.length = (splitFigures computation.job.shape computation.inputs).length
        ∧ (finishing.tab 1).number = computation.job.tab ∧ (finishing.tab 1).owner = some 0
        ∧ (finishing.port 0).outstanding = some (3, .split) ∧ (finishing.port 0).role = .till
        ∧ (finishing.tab 1).pin = none
        ∧ (splitFigures computation.job.shape computation.inputs).any (fun g => g.due ≠ 0) = true) := by decide +kernel

/-- A computation of a split that owes nothing. -/
def freeOfCharge : Computation := { computation with inputs := { computation.inputs with lines := [⟨0, 0, 1⟩] } }

theorem witness_SplitEngineWorks_nothing_due :
    let s := { finishing with computing := some freeOfCharge }
    s.resetPin = false ∧ s.findTab freeOfCharge.job.tab = some 1 ∧ (s.tab 1).split = some { whole with totals := none }
      ∧ whole.refs = freeOfCharge.refs ∧ freeOfCharge.refs.Nodup
      ∧ freeOfCharge.refs.length = (splitFigures freeOfCharge.job.shape freeOfCharge.inputs).length
      ∧ (s.tab 1).owner = some 0 ∧ (s.port 0).outstanding = some (3, .split) ∧ (s.port 0).role = .till
      ∧ (s.tab 1).pin = none
      ∧ (splitFigures freeOfCharge.job.shape freeOfCharge.inputs).all (fun g => g.due = 0) = true := by decide +kernel

theorem witness_SplitEngineWorks_owner_reset :
    let s := { finishing.modifyTab 1 (fun t => { t with owner := none }) with approvals := undos }
    s.resetPin = false ∧ s.computing = some computation ∧ s.findTab computation.job.tab = some 1
      ∧ (s.tab 1).split = some { whole with totals := none } ∧ whole.refs = computation.refs ∧ (s.tab 1).owner = none
      ∧ (s.approvals.map Entry.number).Nodup := by decide +kernel

theorem witness_SplitDuesSumToTotal : (1 ≤ 24 ∧ 24 ≤ 24) ∧ mapOk [(1, 3), (24, 2)] = true := by decide

theorem witness_ProportionalDivision : 0 < [334, 333, 333].sum ∧ 2 < [334, 333, 333].length ∧ [0, 0].sum = 0 := by decide

theorem witness_TenderPaysShare :
    let f : TenderFields := ⟨2, 1, 0, some 70, some 99999⟩
    tillReady 0 1 venue = true ∧ venue.findTab f.tab = some 1 ∧ (venue.tab 1).pin = none
      ∧ (venue.tab 1).state = .settling ∧ (venue.tab 1).split = some whole ∧ whole.totals ≠ none
      ∧ (venue.tab 1).owner = some 0 ∧ venue.shareAt (venue.tab 1) f.share = some (5, part30)
      ∧ f.kind = tenderKindCode .card ∧ f.tip.getD 0 ≤ 99999 ∧ part30.state = .due ∧ part30.tenders.length < 4
      ∧ f.amount = some 70 ∧ 70 ≤ part30.figures.due - part30.paid ∧ 7 ∈ whole.refs
      ∧ venue.shares.get 7 = .held unpaid ∧ unpaid.state = .due ∧ (7 : ShareNo) ≠ 5 := by decide +kernel

/-- The cash tender of the greatest amount taken. -/
theorem witness_TenderPaysShare_cash :
    let f : TenderFields := ⟨2, 1, 1, some 1000069, none⟩
    f.kind = tenderKindCode .cash ∧ f.tip.getD 0 = 0 ∧ 1000069 ≤ part30.figures.due - part30.paid + 999999 := by
  decide +kernel

theorem witness_LastTenderClosesTab :
    let s := venue.setShare 7 (.held paidUp)
    let f : TenderFields := ⟨2, 1, 0, some 70, none⟩
    (tillReady 0 1 s = true ∧ s.findTab f.tab = some 1 ∧ (s.tab 1).pin = none ∧ (s.tab 1).state = .settling
      ∧ (s.tab 1).split = some whole ∧ whole.totals ≠ none ∧ (s.tab 1).owner = some 0
      ∧ s.shareAt (s.tab 1) f.share = some (5, part30) ∧ f.kind = 0 ∧ f.tip = none ∧ part30.state = .due
      ∧ part30.tenders.length < 4 ∧ f.amount = some 70 ∧ part30.paid + 70 = part30.figures.due)
      ∧ ∀ j' other, j' ∈ whole.refs → j' ≠ 5 → s.shares.get j' = .held other → other.state = .paid := by
  refine ⟨by decide +kernel, ?_⟩
  intro j other hj hne hs
  have h7 : j = 7 := by
    simp only [whole, List.mem_cons, List.not_mem_nil, or_false] at hj
    exact hj.resolve_left hne
  subst h7
  have h : (venue.setShare 7 (.held paidUp)).shares.get 7 = .held paidUp := by decide +kernel
  rw [h] at hs
  injection hs with e
  exact e ▸ rfl

theorem witness_UndoTenderAppliedOrQueued :
    (∀ s ∈ [heldBy (.lane 0), crowded], tillReady 0 1 s = true ∧ s.findTab 2 = some 1 ∧ (s.tab 1).pin = none
        ∧ (s.tab 1).state = .settling ∧ (s.tab 1).split = some whole ∧ (s.tab 1).owner = some 0
        ∧ s.shareAt (s.tab 1) 1 = some (5, part30) ∧ (∀ e ∈ s.approvals, e.tab ≠ (s.tab 1).number ∨ e.ask ≠ .undoTender 1))
      ∧ whole.totals ≠ none ∧ 15 ≤ 15 ∧ part30.tenders = [] ++ [⟨.cash, 30, 30, 0⟩]
      ∧ (heldBy (.lane 0)).token = .lane 0
      ∧ (crowded.token ≠ .lane 0 ∧ crowded.approvals.length < 16 ∧ 1 ≤ crowded.approvalCounter
        ∧ crowded.approvalCounter ≤ 255) := by decide +kernel

theorem witness_DropSplitReleases :
    (∀ s ∈ [venue, { venue.setShare 5 (.held (share 1 100 0 [])) with approvals := undos }], tillReady 0 1 s = true
        ∧ s.findTab 2 = some 1 ∧ (s.tab 1).pin = none ∧ (s.tab 1).state = .settling ∧ (s.tab 1).split = some whole
        ∧ (s.tab 1).owner = some 0)
      ∧ whole.totals ≠ none ∧ (venue.sharesOf (venue.tab 1)).any (fun sh => sh.tenders ≠ []) = true
      ∧ (let s := venue.setShare 5 (.held (share 1 100 0 []))
         (s.sharesOf (s.tab 1)).any (fun sh => sh.tenders ≠ []) = false ∧ (undos.map Entry.number).Nodup) := by
  decide +kernel

/-- The venue with tab 2 ownerless. -/
def ownerless : State := venue.setTab 1 { tab2 with owner := none, claim := none }

/-- The venue with tab 2 closed and one of its tickets live. -/
def toExport : State :=
  { venue.setTab 1 { tab2 with state := .closed, closedAt := some 7, owner := none, claim := none, live := 1 } with
    closeQueue := [2, 3] }

theorem witness_AdoptAndTakeClosed :
    (tillReady 4 1 ownerless = true ∧ ownerless.findTab 2 = some 1 ∧ (ownerless.tab 1).pin = none
        ∧ (ownerless.tab 1).state = .settling ∧ (ownerless.tab 1).split = some whole ∧ whole.totals = some totals
        ∧ (ownerless.tab 1).owner = none)
      ∧ (officeReady 1 venue = true ∧ venue.closeQueue = [])
      ∧ (officeReady 1 toExport = true ∧ toExport.closeQueue = 2 :: [3] ∧ toExport.findTab 2 = some 1
        ∧ (toExport.tab 1).split = some whole ∧ 1 ≤ (toExport.tab 1).live)
      ∧ (let s := { toExport.modifyTab 1 (fun t => { t with live := 0 }) with approvals := undos }
         officeReady 1 s = true ∧ s.closeQueue = 2 :: [3] ∧ s.findTab 2 = some 1 ∧ (s.tab 1).split = some whole
           ∧ (s.tab 1).live = 0 ∧ (s.approvals.map Entry.number).Nodup) := by decide +kernel

/-- The invariants that steps keep hold at a state with open tabs, tickets, a split and tenders. -/
theorem witness_invariants :
    (∀ i, (venue.tab i).base = (venue.tab i).owed) ∧ (∀ i, (venue.item i).sound = true)
      ∧ (∀ l, (venue.port l).roomy = true) ∧ part30.sound = true ∧ unpaid.sound = true := by decide +kernel

/-- A venue with a split in hand and a tab in the close queue, its chips reserved for the one ENTERED line. -/
def sound : State :=
  { finishing.setTab 2 { tab3 with state := .closed } with
    items := venue.items.set 0 { chips with reserved := 3 }, closeQueue := [3] }

theorem witness_ListsHold : ListsHold sound := by
  unfold ListsHold
  decide +kernel

theorem witness_ReservedHolds (m : ItemNo) :
    (sound.item m).reserved = ((List.finRange 128).map fun i => (sound.tab i).entered m).sum := by
  revert m
  decide +kernel

theorem witness_TabsHold : TabsHold sound := by
  unfold TabsHold
  decide +kernel

theorem witness_PortTableIsKept : PortTableHolds (heldBy (.lane 1)) := by
  refine ⟨?_, ?_, ?_, ?_⟩
  · intro l h
    have h1 : (1 : Lane) = l := by
      simp only [heldBy, Port.lane.injEq] at h
      exact h
    subst h1
    decide +kernel
  · decide +kernel
  · decide +kernel
  · decide +kernel

theorem witness_LockedPortsSeeNoMoney :
    venue.findTab 3 = some 2 ∧ lockedPort (.lane 0) (venue.tab 2) venue = true
      ∧ (tabView (.lane 0) ⟨3, 1⟩ venue).2.isSome = true ∧ (rail 0 () venue).2.isSome = true
      ∧ (take 0 () venue).2.isSome = true ∧ (recallTicket 0 12 venue).2.isSome = true ∧ (bump 0 () venue).2.isSome = true
      ∧ (holdLow 0 1 venue).2.isSome = true ∧ (pauseOrOpen .paused (.lane 2) none venue).2.isSome = true
      ∧ (let s := { heldBy (.lane 0) with approvals := [entry 3 (.price 1 500) 3 1] }
         (approvalList (.lane 0) 0 s).2.isSome = true ∧ lockedPort (.lane 0) (s.tabNumbered 3) s = true) := by
  decide +kernel

end Sys2Proof.Tests
end

section
/-! SUPPORT. The books of the catalogue and the lives of tabs (R2, R21, R147, R148, R166): what an operation leaves of them, one
rule per kind of change. -/

namespace Sys2Proof.Machine

/-! ### A request at its block -/

/-- Everything a received request can do outside the port interface, whatever port reset stands inside it: nothing, or what its
block does of its fields. -/
theorem receive_handle_cases {α : Type} (k : Kind) (p : Port) (n tag : Nat) (body : Body α) (fresh : α → State → Option Lane)
    (block : α → State → Answer) (s : State) :
    s.samePart (receive p n s (handle k p tag body fresh block))
      ∨ ∃ fields u, s.samePart u ∧ (block fields u).1.samePart (receive p n s (handle k p tag body fresh block)) := by
  have hc := samePart_clockFrame p n s
  have hh := State.samePart_trans hc (samePart_huntAgain p _)
  have hr (r : Reply) := State.samePart_trans hh (samePart_sendReply p tag (kindCode k) r _)
  unfold receive
  split
  · exact .inl rfl
  dsimp only
  split
  · exact .inl (State.samePart_trans hc (samePart_dropFrame p _))
  unfold handle
  split
  · exact .inl (State.samePart_trans hh (samePart_dropFrame p _))
  split
  · exact .inl (hr _)
  split
  · exact .inl (hr _)
  split
  · exact .inr ⟨_, _, hh, State.samePart_trans (samePart_deliver _ _ _ _) (samePart_composeNotices _ _ _)⟩
  · exact .inl (hr _)

/-! ### The slot a tab number finds -/

/-- The slot that a number finds is the first that bears it (R24). -/
theorem findTab_eq_some {s : State} {n : Nat} {i : Slot} :
    s.findTab n = some i ↔ (1 ≤ n ∧ n ≤ 9999) ∧ s.bears i n = true ∧ ∀ j < i, s.bears j n = false := by
  unfold State.findTab
  split
  · rename_i hn
    rw [List.find?_eq_some_iff_getElem]
    constructor
    · rintro ⟨hb, k, hk, rfl, hj⟩
      refine ⟨hn, hb, fun j hlt => ?_⟩
      have := hj j.val (by simpa [Fin.lt_def] using hlt)
      simpa using this
    · rintro ⟨-, hb, hj⟩
      refine ⟨hb, i.val, by simp, by simp, fun j hlt => ?_⟩
      simpa using hj ⟨j, hlt.trans i.isLt⟩ hlt
  · rename_i hn
    exact ⟨nofun, fun h => absurd h.1 hn⟩

theorem bears_iff {s : State} {i : Slot} {n : Nat} : s.bears i n = true ↔ (s.tab i).state ≠ .free ∧ (s.tab i).number = n := by
  simp [State.bears]

/-- Two numbers that find one slot are the same. -/
theorem findTab_inj {s : State} {m n : Nat} {i : Slot} (hm : s.findTab m = some i) (hn : s.findTab n = some i) : m = n := by
  obtain ⟨-, -, -, rfl⟩ := findTab_some hm
  exact (findTab_some hn).2.2.2

/-- Slots that bear the same numbers are found by the same numbers. -/
theorem findTab_congr {s t : State} {n : Nat} (h : ∀ i, t.bears i n = s.bears i n) : t.findTab n = s.findTab n := by
  simp only [State.findTab, h]

/-- A number goes on finding its slot while that slot goes on bearing it and no other slot comes to bear it. -/
theorem findTab_mono {s t : State} {n : Nat} {k : Slot} (h : s.findTab n = some k) (hk : t.bears k n = true)
    (hj : ∀ j, t.bears j n = true → s.bears j n = true) : t.findTab n = some k := by
  obtain ⟨hn, -, hmin⟩ := findTab_eq_some.mp h
  refine findTab_eq_some.mpr ⟨hn, hk, fun j hlt => ?_⟩
  by_contra hb
  exact absurd (hj j (by simpa using hb)) (by simp [hmin j hlt])

/-! ### The quantities of ENTERED lines (R2) -/

/-- What a line counts for in the reserved quantity of an item (R2). -/
def Line.held (m : ItemNo) (x : Line) : Nat := if x.state = .entered ∧ x.item = m then x.quantity else 0

theorem Line.held_entered {x : Line} (h : x.state = .entered) (m : ItemNo) :
    x.held m = if x.item = m then x.quantity else 0 := by simp [Line.held, h]

theorem Line.held_other {x : Line} (h : x.state ≠ .entered) (m : ItemNo) : x.held m = 0 := by simp [Line.held, h]

theorem Tab.entered_eq (m : ItemNo) (t : Tab) : t.entered m = (t.lines.map (Line.held m)).sum := by
  unfold Tab.entered
  induction t.lines with
  | nil => rfl
  | cons x xs ih => by_cases h : x.state = .entered ∧ x.item = m <;> simpa [h, Line.held] using ih

/-- A tab none of whose lines is ENTERED. -/
def Tab.NoneEntered (t : Tab) : Prop := ∀ x ∈ t.lines, x.state ≠ .entered

theorem Tab.NoneEntered.entered {t : Tab} (h : t.NoneEntered) (m : ItemNo) : t.entered m = 0 := by
  rw [Tab.entered_eq]
  exact List.sum_eq_zero fun n hn => by
    obtain ⟨x, hx, rfl⟩ := List.mem_map.mp hn
    exact Line.held_other (h x hx) m

/-- One line of a tab replaced moves the tab's ENTERED quantities by the difference of the two lines. -/
theorem Tab.entered_set {t u : Tab} {n : Nat} {x y : Line} (h : t.line? n = some x) (hu : u.lines = t.lines.set (n - 1) y)
    (m : ItemNo) : u.entered m + x.held m = t.entered m + y.held m := by
  rw [Tab.entered_eq, Tab.entered_eq, hu]
  exact sum_set (line?_eq.mp h).2 y

theorem Tab.NoneEntered.set {t u : Tab} {n : Nat} {x y : Line} (ht : t.NoneEntered) (h : t.line? n = some x)
    (hu : u.lines = t.lines.set (n - 1) y) (hy : y.state = .entered → x.state = .entered) : u.NoneEntered := by
  intro z hz
  rw [hu] at hz
  rcases List.mem_or_eq_of_mem_set hz with hz | rfl
  · exact ht z hz
  · exact fun e => ht x (List.mem_of_getElem? (line?_eq.mp h).2) (hy e)

/-- Lines changed without touching item, quantity or whether they are ENTERED. -/
theorem Tab.entered_changeLines (t : Tab) (ns : List Nat) {f : Line → Line}
    (hf : ∀ x m, (f x).held m = x.held m) (m : ItemNo) : (t.changeLines ns f).entered m = t.entered m := by
  rw [Tab.entered_eq, Tab.entered_eq]
  have h : (t.changeLines ns f).lines.map (Line.held m) = t.lines.zipIdx.map (Line.held m ∘ Prod.fst) := by
    simp only [Tab.changeLines, List.map_map]
    refine List.map_congr_left fun p _ => ?_
    simp only [Function.comp_apply]
    split
    · exact hf _ _
    · rfl
  rw [h, ← List.map_map, List.zipIdx_map_fst]

theorem Tab.NoneEntered.changeLines {t : Tab} (ht : t.NoneEntered) (ns : List Nat) {f : Line → Line}
    (hf : ∀ x, (f x).state = .entered → x.state = .entered) : (t.changeLines ns f).NoneEntered := by
  intro z hz
  obtain ⟨p, hp, rfl⟩ := List.mem_map.mp hz
  have hx := ht p.1 (List.fst_mem_of_mem_zipIdx hp)
  split
  · exact fun e => hx (hf _ e)
  · exact hx

/-! ### The same tab, as the invariants read it -/

/-- A tab that leads the same life: number and state; with the state not OPEN no new ENTERED line; a split that is being computed
still is; no owner gained but by a SETTLING tab. -/
structure Tab.SameLife (t u : Tab) : Prop where
  number : u.number = t.number
  state : u.state = t.state
  lines : u.state ≠ .opened → t.NoneEntered → u.NoneEntered
  engine : t.claim = none → t.splitComplete = false → u.claim = none ∧ u.splitComplete = false
  owner : u.owner ≠ none → t.owner ≠ none ∨ t.state = .settling

/-- A tab that leads the same life with the same ENTERED quantities. -/
structure Tab.Alike (t u : Tab) : Prop extends t.SameLife u where
  entered : ∀ m, u.entered m = t.entered m

/-- A tab changed in nothing that its life depends on but its lines. -/
structure Tab.SameHead (t u : Tab) : Prop where
  number : u.number = t.number
  state : u.state = t.state
  claim : u.claim = t.claim
  split : u.split = t.split
  owner : u.owner = t.owner

theorem Tab.SameHead.life {t u : Tab} (h : t.SameHead u) (hl : u.state ≠ .opened → t.NoneEntered → u.NoneEntered) :
    t.SameLife u :=
  ⟨h.number, h.state, hl, fun hc hs => ⟨h.claim.trans hc, by simpa only [Tab.splitComplete, h.split] using hs⟩,
    fun ho => .inl (h.owner ▸ ho)⟩

theorem Tab.SameLife.alike {t u : Tab} (h : t.SameLife u) (hl : u.lines = t.lines) : t.Alike u :=
  ⟨h, fun m => by rw [Tab.entered_eq, Tab.entered_eq, hl]⟩

theorem Tab.NoneEntered.of_lines {t u : Tab} (hl : u.lines = t.lines) (h : t.NoneEntered) : u.NoneEntered := by
  unfold Tab.NoneEntered
  rwa [hl]

theorem Tab.SameHead.alike {t u : Tab} (h : t.SameHead u) (hl : u.lines = t.lines) : t.Alike u :=
  (h.life fun _ => .of_lines hl).alike hl

theorem Tab.Alike.refl (t : Tab) : t.Alike t := Tab.SameHead.alike ⟨rfl, rfl, rfl, rfl, rfl⟩ rfl

theorem Tab.SameLife.trans {t u v : Tab} (h : t.SameLife u) (h' : u.SameLife v) : t.SameLife v where
  number := h'.number.trans h.number
  state := h'.state.trans h.state
  lines hv ht := h'.lines hv (h.lines (h'.state ▸ hv) ht)
  engine hc hs := h'.engine (h.engine hc hs).1 (h.engine hc hs).2
  owner hv := (h'.owner hv).elim h.owner fun e => .inr (h.state ▸ e)

theorem Tab.Alike.trans {t u v : Tab} (h : t.Alike u) (h' : u.Alike v) : t.Alike v :=
  ⟨h.toSameLife.trans h'.toSameLife, fun m => (h'.entered m).trans (h.entered m)⟩

/-- A tab with one line replaced by one that counts the same. -/
theorem Tab.SameHead.alike_set {t u : Tab} (h : t.SameHead u) {n : Nat} {x y : Line} (hx : t.line? n = some x)
    (hu : u.lines = t.lines.set (n - 1) y) (hs : y.state = .entered → x.state = .entered) (hh : ∀ m, y.held m = x.held m) :
    t.Alike u :=
  ⟨h.life fun _ ht => ht.set hx hu hs, fun m => by
    have := Tab.entered_set hx hu m
    have := hh m
    omega⟩

theorem Tab.alike_named (p : Port) (t : Tab) : t.Alike (t.named p) := by
  refine Tab.SameLife.alike ⟨by simp, by simp, fun _ => .of_lines (by simp), fun hc hs => ⟨?_, ?_⟩, fun h => .inl (by simpa using h)⟩
    (by simp)
  · unfold Tab.named
    split
    · simp [hc]
    · exact hc
  · simpa [Tab.splitComplete] using hs

theorem Tab.alike_markLine (t : Tab) (n : Nat) (pending : Option Nat) : t.Alike (t.markLine n pending) := by
  unfold Tab.markLine
  split
  · rename_i x hx
    exact Tab.SameHead.alike_set ⟨rfl, rfl, rfl, rfl, rfl⟩ hx rfl id fun _ => rfl
  · exact .refl t

theorem Tab.alike_compLine {t : Tab} {n : Nat} {x : Line} (h : t.line? n = some x) : t.Alike (t.compLine n x) :=
  Tab.SameHead.alike_set ⟨rfl, rfl, rfl, rfl, rfl⟩ h rfl id fun _ => rfl

theorem Tab.alike_priceLine {t : Tab} {n : Nat} {x : Line} (h : t.line? n = some x) (price : Nat) :
    t.Alike (t.priceLine n x price) :=
  Tab.SameHead.alike_set ⟨rfl, rfl, rfl, rfl, rfl⟩ h rfl id fun _ => rfl

/-- A line VOIDED that was not ENTERED. -/
theorem Tab.alike_voidLine {t : Tab} {n : Nat} {x : Line} (h : t.line? n = some x) (hx : x.state ≠ .entered) :
    t.Alike (t.voidLine n x) :=
  Tab.SameHead.alike_set ⟨rfl, rfl, rfl, rfl, rfl⟩ h rfl (fun e => by cases e) fun m => by
    rw [Line.held_other (by simp) m, Line.held_other hx m]

/-- FIRED lines SERVED, or SERVED lines FIRED again, with another count of live tickets. -/
theorem Tab.alike_changeLines (t : Tab) (ns : List Nat) (live : Nat) {f : Line → Line}
    (hf : ∀ x, (f x).state = .entered → x.state = .entered) (hh : ∀ x m, (f x).held m = x.held m) :
    t.Alike { t.changeLines ns f with live := live } :=
  ⟨Tab.SameHead.life ⟨rfl, rfl, rfl, rfl, rfl⟩ fun _ ht => ht.changeLines ns hf, t.entered_changeLines ns hh⟩

/-! ### A part whose books stand still -/

/-- Two states with the same catalogue, tabs, engine and close queue. -/
structure SameBooks (s t : State) : Prop where
  items : t.items = s.items
  tabs : t.tabs = s.tabs
  jobs : t.jobs = s.jobs
  queue : t.closeQueue = s.closeQueue

/-- A change of state after which the catalogue is the same, every tab leads the same life, and engine and close queue have the
same tabs in hand. -/
structure Quiet (s t : State) : Prop where
  items : t.items = s.items
  tabs : ∀ i, (s.tab i).Alike (t.tab i)
  jobs : t.jobs = s.jobs
  queue : t.closeQueue = s.closeQueue

/-- The two invariants of tabs and reserved quantities that are kept together (R2, R21, R147, R148, R166). -/
def TabBooks (s : State) : Prop := ReservedHolds s ∧ TabsHold s

/-- A change of state that keeps both halves of R2. -/
structure KeepsBooks (s t : State) : Prop where
  catalogue : CatalogueHolds s → CatalogueHolds t
  books : TabBooks s → TabBooks t

theorem State.tab_congr {s t : State} (h : t.tabs = s.tabs) (i : Slot) : t.tab i = s.tab i := by simp only [State.tab, h]

theorem State.item_congr {s t : State} (h : t.items = s.items) (m : ItemNo) : t.item m = s.item m := by simp only [State.item, h]

theorem SameBooks.trans {s t u : State} (h : SameBooks s t) (h' : SameBooks t u) : SameBooks s u :=
  ⟨h'.items.trans h.items, h'.tabs.trans h.tabs, h'.jobs.trans h.jobs, h'.queue.trans h.queue⟩

theorem SameBooks.quiet {s t : State} (h : SameBooks s t) : Quiet s t :=
  ⟨h.items, fun i => by rw [State.tab_congr h.tabs]; exact .refl _, h.jobs, h.queue⟩

theorem Quiet.refl (s : State) : Quiet s s := ⟨rfl, fun _ => .refl _, rfl, rfl⟩

theorem Quiet.trans {s t u : State} (h : Quiet s t) (h' : Quiet t u) : Quiet s u :=
  ⟨h'.items.trans h.items, fun i => (h.tabs i).trans (h'.tabs i), h'.jobs.trans h.jobs, h'.queue.trans h.queue⟩

theorem KeepsBooks.trans {s t u : State} (h : KeepsBooks s t) (h' : KeepsBooks t u) : KeepsBooks s u :=
  ⟨h'.catalogue ∘ h.catalogue, h'.books ∘ h.books⟩

/-- The catalogue half is kept where the items are the same. -/
theorem KeepsBooks.of_items {s t : State} (hi : t.items = s.items) (h : TabBooks s → TabBooks t) : KeepsBooks s t :=
  ⟨fun hc m => by rw [State.item_congr hi]; exact hc m, h⟩

theorem ReservedHolds.congr {s t : State} (hs : ReservedHolds s) (hi : ∀ m, (t.item m).reserved = (s.item m).reserved)
    (ht : ∀ i m, (t.tab i).entered m = (s.tab i).entered m) : ReservedHolds t := fun m => by
  simp only [hi, ht]
  exact hs m

/-- Tabs that lead the same lives, with the same in hand, still agree with engine and close queue. -/
theorem TabsHold.of_life {s t : State} (hs : TabsHold s) (ht : ∀ i, (s.tab i).SameLife (t.tab i)) (hj : t.jobs = s.jobs)
    (hq : t.closeQueue = s.closeQueue) : TabsHold t := by
  obtain ⟨hlines, hnd, hjobs, hqnd, hqueue, howner⟩ := hs
  have hf (n : Nat) : t.findTab n = s.findTab n :=
    findTab_congr fun i => by simp only [State.bears, (ht i).number, (ht i).state]
  refine ⟨fun i hi => (ht i).lines hi (hlines i ((ht i).state ▸ hi)), hj ▸ hnd, fun job hjob => ?_, hq ▸ hqnd, fun n hn => ?_,
    fun i hi => ?_⟩
  · obtain ⟨i, hi, hst, hcl, hsp⟩ := hjobs job (hj ▸ hjob)
    exact ⟨i, (hf _).trans hi, (ht i).state.trans hst, (ht i).engine hcl hsp⟩
  · obtain ⟨i, hi, hst⟩ := hqueue n (hq ▸ hn)
    exact ⟨i, (hf _).trans hi, (ht i).state.trans hst⟩
  · exact (ht i).state.trans (((ht i).owner hi).elim (howner i) id)

theorem Quiet.keeps {s t : State} (h : Quiet s t) : KeepsBooks s t :=
  .of_items h.items fun hs =>
    ⟨hs.1.congr (fun m => by rw [State.item_congr h.items]) fun i => (h.tabs i).entered,
      hs.2.of_life (fun i => (h.tabs i).toSameLife) h.jobs h.queue⟩

theorem SameBooks.keeps {s t : State} (h : SameBooks s t) : KeepsBooks s t := h.quiet.keeps

theorem KeepsBooks.refl (s : State) : KeepsBooks s s := (Quiet.refl s).keeps

/-! ### Changes that stand outside the books -/

theorem same_samePart {s t : State} (h : s.samePart t) : SameBooks s t := by
  unfold State.samePart at h
  rw [h]
  exact ⟨rfl, rfl, rfl, rfl⟩

theorem same_raised (r : Raised) (s : State) : SameBooks s (s.raised r) := ⟨rfl, rfl, rfl, rfl⟩

theorem same_touch (i : Slot) (s : State) : SameBooks s (touch i s) := touch_eq i s ▸ same_raised _ s

theorem same_raiseLanes (k : EventKind) (ls : List Lane) (s : State) : SameBooks s (raiseLanes k ls s) := ⟨rfl, rfl, rfl, rfl⟩

theorem same_raisePort (k : EventKind) (p : Port) (s : State) : SameBooks s (raisePort k p s) := raisePort_eq k p s ▸ same_raised _ s

theorem same_announceQueue (s : State) : SameBooks s (announceQueue s) := announceQueue_eq s ▸ same_raised _ s

theorem same_returnToken (s : State) : SameBooks s (returnToken s) :=
  SameBooks.trans (t := raiseOffice .tokenGiven (giveToken .office s)) ⟨rfl, rfl, rfl, rfl⟩ (same_announceQueue _)

theorem same_recomputeRail (i : StationNo) (s : State) : SameBooks s (recomputeRail i s) :=
  recomputeRail_eq i s ▸ ⟨rfl, rfl, rfl, rfl⟩

theorem same_recomputeRails (is : List StationNo) (s : State) : SameBooks s (recomputeRails is s) := by
  induction is generalizing s with
  | nil => exact ⟨rfl, rfl, rfl, rfl⟩
  | cons i is ih => exact (same_recomputeRail i s).trans (ih _)

theorem same_closeEntries (v : Verdict) (es : List Entry) (s : State) : SameBooks s (es.foldl (closeEntry v) s) := by
  induction es generalizing s with
  | nil => exact ⟨rfl, rfl, rfl, rfl⟩
  | cons e es ih => exact SameBooks.trans (closeEntry_eq v s e ▸ ⟨rfl, rfl, rfl, rfl⟩) (ih _)

theorem same_endStale (tab : Nat) (which : Ask → Bool) (s : State) : SameBooks s (endStale tab which s) := same_closeEntries _ _ s

theorem same_answerSplit (l : Lane) (r : Reply) (s : State) : SameBooks s (answerSplit l r s) := by
  unfold answerSplit
  split <;> exact ⟨rfl, rfl, rfl, rfl⟩

/-- One tab replaced by one that leads the same life. -/
theorem quiet_setTab {s : State} {i : Slot} {u : Tab} (h : (s.tab i).Alike u) : Quiet s (s.setTab i u) where
  items := rfl
  tabs j := by
    rw [State.setTab_tab]
    split
    · subst_vars; exact h
    · exact .refl _
  jobs := rfl
  queue := rfl

theorem quiet_modifyTab {s : State} {i : Slot} {f : Tab → Tab} (h : (s.tab i).Alike (f (s.tab i))) : Quiet s (s.modifyTab i f) :=
  quiet_setTab h

/-- Every tab replaced by one that leads the same life, and whatever else stands outside the books. -/
theorem quiet_tabs {s t : State} (f : Slot → Tab) (ht : t.tabs = tableOf f) (h : ∀ i, (s.tab i).Alike (f i)) (hi : t.items = s.items)
    (hj : t.jobs = s.jobs) (hq : t.closeQueue = s.closeQueue) : Quiet s t :=
  ⟨hi, fun i => by simpa only [State.tab, ht, tableOf_get] using h i, hj, hq⟩

theorem Quiet.same {s t u : State} (h : Quiet s t) (h' : SameBooks t u) : Quiet s u := h.trans h'.quiet

theorem KeepsBooks.same {s t u : State} (h : KeepsBooks s t) (h' : SameBooks t u) : KeepsBooks s u := h.trans h'.keeps

theorem Quiet.touch {s t : State} {i : Slot} (h : Quiet s t) : Quiet s (touch i t) := h.same (same_touch i t)

theorem KeepsBooks.touch {s t : State} {i : Slot} (h : KeepsBooks s t) : KeepsBooks s (touch i t) := h.same (same_touch i t)

theorem Quiet.modifyTab {s t : State} {i : Slot} {f : Tab → Tab} (h : Quiet s t) (hf : (t.tab i).Alike (f (t.tab i))) :
    Quiet s (t.modifyTab i f) := h.trans (quiet_modifyTab hf)

theorem KeepsBooks.answer {s t : State} {status : Status} {body : List Field} (h : KeepsBooks s t) :
    KeepsBooks s (Machine.answer t status body).1 := h

/-- A request that names a tab keeps the books where its continuation does (R24, R161). -/
theorem withTab_keeps {p : Port} {n : Nat} {s : State} {k : Slot → State → Answer} {missing : List Field}
    (h : ∀ i s', s'.findTab n = some i → KeepsBooks s' (k i s').1) : KeepsBooks s (withTab p n s k missing).1 := by
  rw [withTab_eq]
  split
  · exact .refl s
  · rename_i i hi
    have hq : Quiet s (s.setTab i ((s.tab i).named p)) := quiet_setTab (Tab.alike_named p _)
    refine hq.keeps.trans (h i _ ?_)
    exact (findTab_congr fun j => by simp only [State.bears, (hq.tabs j).number, (hq.tabs j).state]).trans hi

end Sys2Proof.Machine
end

section
/-! SUPPORT. The operations that change the books: items edited, lines entered, struck and fired (R2, R12 to R15), and tabs that
change their state (R23, R26, R148, R158, R159, R166). -/

namespace Sys2Proof.Machine

/-! ### Items and the lines that reserve them -/

theorem updateItem_same (m : ItemNo) (it : Item) (s : State) : SameBooks (s.setItem m it) (updateItem m it s) :=
  updateItem_eq m it s ▸ same_raised _ _

theorem CatalogueHolds.setItem {s t : State} {m : ItemNo} {it : Item} (hs : CatalogueHolds s) (hi : t.items = s.items.set m it)
    (h : (s.item m).sound = true → it.sound = true) : CatalogueHolds t := fun k => by
  rw [State.item_congr (s := s.setItem m it) hi, State.setItem_item]
  split
  · exact h (hs m)
  · exact hs k

/-- An item edited by the catalogue's own requests: sound still, its reserved quantity kept (R6, R8, R10). -/
theorem keeps_editItem {s : State} {m : ItemNo} {it : Item} (hr : it.reserved = (s.item m).reserved)
    (h : (s.item m).sound = true → it.sound = true) : KeepsBooks s (updateItem m it s) := by
  refine KeepsBooks.same (t := s.setItem m it) ⟨fun hs => hs.setItem rfl h, fun hs => ⟨hs.1.congr (fun k => ?_) fun _ _ => rfl, ?_⟩⟩
    (updateItem_same m it s)
  · rw [State.setItem_item]
    split
    · subst_vars; exact hr
    · rfl
  · exact hs.2.of_life (fun i => (Tab.Alike.refl _).toSameLife) rfl rfl

/-- The sum over all slots when one tab changes. -/
theorem sum_setTab (f : Tab → Nat) (s : State) (i : Slot) (u : Tab) :
    ((List.finRange 128).map fun j => f ((s.setTab i u).tab j)).sum + f (s.tab i)
      = ((List.finRange 128).map fun j => f (s.tab j)).sum + f u := by
  simp only [← Fin.sum_univ_def]
  rw [← Finset.sum_erase_add _ _ (Finset.mem_univ i), ← Finset.sum_erase_add _ (fun j => f (s.tab j)) (Finset.mem_univ i),
    State.setTab_tab_self, Finset.sum_congr rfl fun j hj => by rw [s.setTab_tab_ne u (Finset.ne_of_mem_erase hj)]]
  omega

/-- Reserved quantities that move with the ENTERED quantities of one tab (R2). -/
theorem ReservedHolds.setTab {s t : State} {i : Slot} {u : Tab} (hs : ReservedHolds s) (ht : t.tabs = s.tabs.set i u)
    (h : ∀ m, (t.item m).reserved + (s.tab i).entered m = (s.item m).reserved + u.entered m) : ReservedHolds t := fun m => by
  have hsum := sum_setTab (Tab.entered m) s i u
  have hm := hs m
  have ht' (j : Slot) : t.tab j = (s.setTab i u).tab j := State.tab_congr ht j
  simp only [ht']
  have := h m
  omega

theorem sum_lines_ge {f : Line → Nat} {t : Tab} {n : Nat} {x : Line} (h : t.line? n = some x) : f x ≤ (t.lines.map f).sum :=
  List.single_le_sum (fun _ _ => Nat.zero_le _) _ (List.mem_map_of_mem (List.mem_of_getElem? (line?_eq.mp h).2))

/-- An ENTERED line's quantity is reserved (R2). -/
theorem ReservedHolds.quantity_le {s : State} (hs : ReservedHolds s) {i : Slot} {n : Nat} {x : Line}
    (hx : (s.tab i).line? n = some x) (he : x.state = .entered) : x.quantity ≤ (s.item x.item).reserved := by
  have h1 : x.held x.item ≤ (s.tab i).entered x.item := Tab.entered_eq x.item _ ▸ sum_lines_ge hx
  have h2 : (s.tab i).entered x.item ≤ (s.item x.item).reserved :=
    hs x.item ▸ List.single_le_sum (fun _ _ => Nat.zero_le _) _ (List.mem_map_of_mem (List.mem_finRange i))
  rw [Line.held_entered he, if_pos rfl] at h1
  exact h1.trans h2

theorem TabsHold.setTab {s t : State} {i : Slot} {u : Tab} (hs : TabsHold s) (ht : t.tabs = s.tabs.set i u)
    (h : (s.tab i).SameLife u) (hj : t.jobs = s.jobs) (hq : t.closeQueue = s.closeQueue) : TabsHold t := by
  refine hs.of_life (fun j => ?_) hj hq
  rw [State.tab_congr (s := s.setTab i u) ht, State.setTab_tab]
  split
  · subst_vars; exact h
  · exact (Tab.Alike.refl _).toSameLife

/-- An ENTERED line that ceases to be ENTERED while its item's reserved quantity falls by the line's: VOIDED (R37) or FIRED
(R74). -/
theorem keeps_unreserve {s : State} {i : Slot} {n : Nat} {x y : Line} {u : Tab} {it : Item} (hx : (s.tab i).line? n = some x)
    (he : x.state = .entered) (hy : y.state ≠ .entered) (hu : (s.tab i).SameHead u)
    (hl : u.lines = (s.tab i).lines.set (n - 1) y) (hr : it.reserved = (s.item x.item).reserved - x.quantity)
    (h : (s.item x.item).sound = true → it.sound = true) : KeepsBooks s ((s.setTab i u).setItem x.item it) := by
  refine ⟨fun hs => hs.setItem rfl h, fun hs => ⟨hs.1.setTab rfl fun m => ?_, hs.2.setTab rfl (hu.life fun _ ht =>
    ht.set hx hl fun e => absurd e hy) rfl rfl⟩⟩
  have hm := Tab.entered_set hx hl m
  have hq := hs.1.quantity_le hx he
  rw [Line.held_other hy, Line.held_entered he] at hm
  rw [State.setItem_item, State.setTab_item]
  by_cases hk : m = x.item
  · subst hk
    rw [if_pos rfl] at hm
    rw [if_pos rfl, hr]
    omega
  · rw [if_neg fun e => hk e.symm] at hm
    rw [if_neg hk]
    omega

/-- A void of an ENTERED line (R37). -/
theorem strikeEntered_keeps {s : State} {i : Slot} {n : Nat} {x : Line} (hx : (s.tab i).line? n = some x)
    (he : x.state = .entered) : KeepsBooks s (strikeEntered i n x s) :=
  (keeps_unreserve hx he (y := { x with state := .voided, ticket := none }) (u := (s.tab i).voidLine n x)
    (it := (s.item x.item).release x.quantity) (by simp) ⟨rfl, rfl, rfl, rfl, rfl⟩ rfl rfl (Item.sound_release _)).same
    ((updateItem_same _ _ _).trans (same_touch i _))

/-- The consumption of an item takes the quantity out of what is reserved (R14). -/
theorem Item.consume_reserved (q : Nat) (it : Item) : (it.consume q).reserved = it.reserved - q := by
  unfold Item.consume
  split <;> rfl

theorem Item.restore_reserved (q : Nat) (it : Item) : (it.restore q).reserved = it.reserved := by
  unfold Item.restore
  split <;> rfl

/-- One line of a FIRE (R74). -/
theorem fireLine_keeps (i : Slot) (number : Nat) (s : State) (n : Nat) : KeepsBooks s (fireLine i number s n) := by
  unfold fireLine
  split
  · exact .refl s
  · rename_i x hx
    split
    · exact keeps_unreserve hx ‹_› (by simp) ⟨rfl, rfl, rfl, rfl, rfl⟩ rfl (Item.consume_reserved _ _) (Item.sound_consume _)
    · exact .refl s

/-- A line entered on an OPEN tab, its quantity reserved (R35). -/
theorem enterLine_keeps {s : State} {i : Slot} {line : Line} (ho : (s.tab i).state = .opened) (he : line.state = .entered)
    (hq : line.quantity ≤ (s.item line.item).room) : KeepsBooks s (enterLine i line s) := by
  let u : Tab := { s.tab i with lines := (s.tab i).lines ++ [line], base := (s.tab i).base + line.amount }
  have hu : (s.tab i).SameLife u := Tab.SameHead.life ⟨rfl, rfl, rfl, rfl, rfl⟩ fun h => absurd ho h
  have hm (m : ItemNo) : u.entered m = (s.tab i).entered m + line.held m := by
    rw [Tab.entered_eq, Tab.entered_eq]
    simp [u]
  have hk : KeepsBooks s ((s.setTab i u).setItem line.item ((s.item line.item).reserve line.quantity)) := by
    refine ⟨fun hs => hs.setItem rfl fun h => Item.sound_reserve h hq,
      fun hs => ⟨hs.1.setTab rfl fun m => ?_, hs.2.setTab rfl hu rfl rfl⟩⟩
    rw [State.setItem_item, State.setTab_item, hm, Line.held_entered he]
    by_cases h : m = line.item
    · subst h
      simp only [if_true, Item.reserve]
      omega
    · rw [if_neg h, if_neg fun e => h e.symm]
      omega
  exact hk.same ((updateItem_same _ _ _).trans (same_touch i _))

/-! ### Tabs that change their state -/

/-- The engine has no split in hand of the tab in a slot. -/
def NotInHand (i : Slot) (s : State) : Prop := ∀ job ∈ s.jobs, s.findTab job.tab ≠ some i

/-- The close queue does not name the tab in a slot. -/
def NotQueued (i : Slot) (s : State) : Prop := ∀ n ∈ s.closeQueue, s.findTab n ≠ some i

theorem TabsHold.notInHand {s : State} (hs : TabsHold s) {i : Slot}
    (h : (s.tab i).state ≠ .settling ∨ (s.tab i).claim ≠ none ∨ (s.tab i).splitComplete ≠ false) : NotInHand i s := by
  intro job hjob hi
  obtain ⟨j, hj, hst, hcl, hsp⟩ := hs.2.2.1 job hjob
  cases hi.symm.trans hj
  exact h.elim (· hst) (·.elim (· hcl) (· hsp))

theorem TabsHold.notQueued {s : State} (hs : TabsHold s) {i : Slot} (h : (s.tab i).state ≠ .closed) : NotQueued i s := by
  intro n hn hi
  obtain ⟨j, hj, hst⟩ := hs.2.2.2.2.1 n hn
  cases hi.symm.trans hj
  exact h hst

theorem SameBooks.findTab {s t : State} (h : SameBooks s t) (n : Nat) : t.findTab n = s.findTab n :=
  findTab_congr fun i => by simp only [State.bears, State.tab_congr h.tabs]

/-- One slot comes to hold another record: the tab that `u` is, with what engine and close queue then have in hand. -/
theorem TabsHold.change {s t : State} {i : Slot} {u : Tab} (hs : TabsHold s) (ht : t.tabs = s.tabs.set i u)
    (hlines : u.state ≠ .opened → u.NoneEntered) (howner : u.owner ≠ none → u.state = .settling)
    (hbears : ∀ n k, s.findTab n = some k → u.state ≠ .free → u.number = n → s.bears i n = true)
    (hnd : (t.jobs.map SplitJob.tab).Nodup)
    (hjobs : ∀ job ∈ t.jobs, job ∈ s.jobs ∧ s.findTab job.tab ≠ some i
      ∨ s.findTab job.tab = some i ∧ u.number = job.tab ∧ u.state = .settling ∧ u.claim = none ∧ u.splitComplete = false)
    (hqnd : t.closeQueue.Nodup)
    (hqueue : ∀ n ∈ t.closeQueue, n ∈ s.closeQueue ∧ s.findTab n ≠ some i
      ∨ s.findTab n = some i ∧ u.number = n ∧ u.state = .closed) : TabsHold t := by
  have htab (j : Slot) : t.tab j = if j = i then u else s.tab j := (State.tab_congr (s := s.setTab i u) ht j).trans (s.setTab_tab i j u)
  have hself : t.tab i = u := by rw [htab, if_pos rfl]
  have hother {j : Slot} (h : j ≠ i) : t.tab j = s.tab j := by rw [htab, if_neg h]
  have hback {n : Nat} {k : Slot} (hk : s.findTab n = some k) (j : Slot) (hj : t.bears j n = true) : s.bears j n = true := by
    by_cases hji : j = i
    · subst hji
      rw [bears_iff, hself] at hj
      exact hbears n k hk hj.1 hj.2
    · rwa [State.bears, hother hji] at hj
  have haway {n : Nat} {k : Slot} (hk : s.findTab n = some k) (hki : k ≠ i) : t.findTab n = some k :=
    findTab_mono hk (by rw [State.bears, hother hki]; exact bears_iff.mpr (findTab_some hk).2.2) (hback hk)
  have hstay {n : Nat} (hk : s.findTab n = some i) (hu : u.number = n) (hf : u.state ≠ .free) : t.findTab n = some i :=
    findTab_mono hk (by rw [bears_iff, hself]; exact ⟨hf, hu⟩) (hback hk)
  obtain ⟨hl, -, hjob, -, hqu, ho⟩ := hs
  refine ⟨fun j => ?_, hnd, fun job hj => ?_, hqnd, fun n hn => ?_, fun j => ?_⟩
  · by_cases h : j = i
    · rw [h, hself]; exact hlines
    · rw [hother h]; exact hl j
  · rcases hjobs job hj with ⟨hold, hne⟩ | ⟨hk, hu, hst, hcl, hsp⟩
    · obtain ⟨k, hk, hst⟩ := hjob job hold
      have hki : k ≠ i := fun e => hne (e ▸ hk)
      exact ⟨k, haway hk hki, by rwa [hother hki]⟩
    · exact ⟨i, hstay hk hu (by simp [hst]), by rw [hself]; exact ⟨hst, hcl, hsp⟩⟩
  · rcases hqueue n hn with ⟨hold, hne⟩ | ⟨hk, hu, hst⟩
    · obtain ⟨k, hk, hst⟩ := hqu n hold
      have hki : k ≠ i := fun e => hne (e ▸ hk)
      exact ⟨k, haway hk hki, by rwa [hother hki]⟩
    · exact ⟨i, hstay hk hu (by simp [hst]), by rw [hself]; exact hst⟩
  · by_cases h : j = i
    · rw [h, hself]; exact howner
    · rw [hother h]; exact ho j

/-- A record without ENTERED lines for a record without ENTERED lines moves no reserved quantity. -/
theorem ReservedHolds.change {s t : State} {i : Slot} {u : Tab} (hs : ReservedHolds s) (ht : t.tabs = s.tabs.set i u)
    (hi : t.items = s.items) (hold : (s.tab i).NoneEntered) (hnew : u.NoneEntered) : ReservedHolds t :=
  hs.setTab ht fun m => by rw [State.item_congr hi, hold.entered, hnew.entered]

/-- A tab neither in hand nor queued comes to hold a record of the same number, or becomes FREE; nothing else changes. -/
theorem TabBooks.change {s t : State} {i : Slot} {u : Tab} (hs : TabBooks s) (hb : SameBooks (s.setTab i u) t)
    (hhand : NotInHand i s) (hqueue : NotQueued i s) (hold : (s.tab i).NoneEntered) (hnew : u.NoneEntered)
    (howner : u.owner ≠ none → u.state = .settling)
    (hnum : u.state ≠ .free → (s.tab i).state ≠ .free ∧ u.number = (s.tab i).number) : TabBooks t := by
  refine ⟨hs.1.change hb.tabs hb.items hold hnew, hs.2.change hb.tabs (fun _ => hnew) howner ?_ ?_ ?_ ?_ ?_⟩
  · exact fun n _ _ hf hn => bears_iff.mpr ⟨(hnum hf).1, (hnum hf).2 ▸ hn⟩
  · exact hb.jobs ▸ hs.2.2.1
  · exact fun job hj => .inl ⟨hb.jobs ▸ hj, hhand job (hb.jobs ▸ hj)⟩
  · exact hb.queue ▸ hs.2.2.2.2.1
  · exact fun n hn => .inl ⟨hb.queue ▸ hn, hqueue n (hb.queue ▸ hn)⟩

theorem TabBooks.noneEntered {s : State} (hs : TabBooks s) {i : Slot} (h : (s.tab i).state ≠ .opened) : (s.tab i).NoneEntered :=
  hs.2.1 i h

theorem Tab.noneEntered_blank : Tab.blank.NoneEntered := fun _ hx => by cases hx

/-- A tab becoming FREE (R23). -/
theorem freeTab_same (i : Slot) (s : State) : SameBooks (s.setTab i Tab.blank) (freeTab i s) := by
  have h := (same_touch i s).trans (same_endStale (s.tab i).number (fun _ => true) (touch i s))
  exact ⟨h.items, congrArg (fun v => v.set i Tab.blank) h.tabs, h.jobs, h.queue⟩

theorem TabBooks.free {s : State} (hs : TabBooks s) {i : Slot} (hhand : NotInHand i s) (hqueue : NotQueued i s)
    (hst : (s.tab i).state ≠ .opened) : TabBooks (freeTab i s) :=
  hs.change (freeTab_same i s) hhand hqueue (hs.noneEntered hst) Tab.noneEntered_blank (fun h => absurd rfl h)
    (fun h => absurd rfl h)

/-- A split released (R159): the tab OPEN again. -/
theorem releaseSplit_same (i : Slot) (s : State) :
    SameBooks (s.setTab i { s.tab i with state := .opened, split := none, owner := none, claim := none }) (releaseSplit i s) :=
  SameBooks.trans (t := (freeShares (s.tab i).shareRefs s).modifyTab i fun t =>
    { t with state := .opened, split := none, owner := none, claim := none }) ⟨rfl, rfl, rfl, rfl⟩
    ((same_endStale _ _ _).trans (same_touch i _))

theorem TabBooks.release {s : State} (hs : TabBooks s) {i : Slot} (hst : (s.tab i).state = .settling) (hhand : NotInHand i s) :
    TabBooks (releaseSplit i s) := by
  have hnone := hs.noneEntered (i := i) (by simp [hst])
  exact hs.change (releaseSplit_same i s) hhand (hs.2.notQueued (by simp [hst])) hnone (.of_lines rfl hnone)
    (fun h => absurd rfl h) (fun _ => ⟨by simp [hst], rfl⟩)

/-- The owner of a split gone (R162, R163). -/
theorem TabBooks.loseOwner {s : State} (hs : TabBooks s) {i : Slot} (hst : (s.tab i).state = .settling) (hhand : NotInHand i s) :
    TabBooks (loseOwner i s) := by
  unfold Machine.loseOwner
  have hn := hs.noneEntered (i := i) (by simp [hst])
  let u : Tab := { s.tab i with owner := none, claim := none }
  have hu : (s.tab i).Alike u :=
    Tab.SameLife.alike ⟨rfl, rfl, fun _ => .of_lines rfl, fun _ h => ⟨rfl, h⟩, fun h => absurd rfl h⟩ rfl
  have hq : Quiet s (s.setTab i u) := quiet_setTab hu
  have hs' := hq.keeps.books hs
  have hhand' : NotInHand i (s.setTab i u) := fun job hj => by
    rw [findTab_congr (s := s) fun j => by simp only [State.bears, (hq.tabs j).number, (hq.tabs j).state]]
    exact hhand job hj
  dsimp only
  split
  · exact (same_touch i _).keeps.books hs'
  · exact hs'.release (by simpa [u] using hst) hhand'

/-- The record of a tab that closes at a clock value (R158). -/
def Tab.whenClosed (clock : Nat) (t : Tab) : Tab :=
  { t with state := .closed, closedAt := some clock, owner := none, claim := none }

/-- A tab closing (R158): CLOSED, and at the end of the close queue. -/
theorem closeTab_same (i : Slot) (s : State) :
    SameBooks { s.setTab i ((s.tab i).whenClosed s.clock) with closeQueue := s.closeQueue ++ [(s.tab i).number] }
      (closeTab i s) := by
  let u := (s.tab i).whenClosed s.clock
  refine SameBooks.trans (t := raiseOffice .closeWaiting
    { s.setTab i u with closeQueue := s.closeQueue ++ [((s.setTab i u).tab i).number] }) ⟨rfl, rfl, rfl, ?_⟩ (same_touch i _)
  rw [State.setTab_tab_self]
  rfl

theorem TabBooks.close {s : State} (hs : TabBooks s) {i : Slot} (hf : s.findTab (s.tab i).number = some i)
    (hst : (s.tab i).state = .settling) (hhand : NotInHand i s) : TabBooks (closeTab i s) := by
  have hnone := hs.noneEntered (i := i) (by simp [hst])
  have hnone' : ((s.tab i).whenClosed s.clock).NoneEntered := .of_lines rfl hnone
  have hqueue := hs.2.notQueued (i := i) (by simp [hst])
  refine (closeTab_same i s).keeps.books ⟨hs.1.change rfl rfl hnone hnone',
    hs.2.change rfl (fun _ => hnone') (fun h => absurd rfl h) ?_ hs.2.2.1 ?_ ?_ ?_⟩
  · exact fun n _ _ _ hn => bears_iff.mpr ⟨by simp [hst], hn⟩
  · exact fun job hj => .inl ⟨hj, hhand job hj⟩
  · refine List.nodup_append.mpr ⟨hs.2.2.2.2.1, by simp, fun a ha b hb e => ?_⟩
    rw [List.mem_singleton.mp hb] at e
    exact hqueue a ha (e ▸ hf)
  · intro n hn
    rcases List.mem_append.mp hn with hn | hn
    · exact .inl ⟨hn, hqueue n hn⟩
    · rw [List.mem_singleton.mp hn]
      exact .inr ⟨hf, rfl, rfl⟩

theorem closeTab_items (i : Slot) (s : State) : (closeTab i s).items = s.items := (closeTab_same i s).items

theorem releaseSplit_items (i : Slot) (s : State) : (releaseSplit i s).items = s.items := (releaseSplit_same i s).items

theorem loseOwner_items (i : Slot) (s : State) : (loseOwner i s).items = s.items := by
  unfold loseOwner
  dsimp only
  split
  · rw [touch_eq]; rfl
  · exact releaseSplit_items _ _

end Sys2Proof.Machine
end

section
/-! SUPPORT. What each request's block leaves of the books: one rule per block, in the order of the model's files. -/

namespace Sys2Proof.Machine

/-! ### Approvals (R110 to R130) -/

theorem quiet_queueEntry (l : Lane) (i : Slot) (ask : Ask) (reason : Nat) (s : State) : Quiet s (queueEntry l i ask reason s) := by
  unfold queueEntry
  dsimp only
  split
  · refine Quiet.same (Quiet.touch (Quiet.modifyTab ?_ (Tab.alike_markLine _ _ _))) (same_raisePort _ _ _)
    exact SameBooks.quiet ⟨rfl, rfl, rfl, rfl⟩
  · refine SameBooks.quiet (SameBooks.trans ?_ (same_raisePort _ _ _))
    exact ⟨rfl, rfl, rfl, rfl⟩

theorem supervise_keeps {l : Lane} {i : Slot} {ask : Ask} {reason : Nat} {s : State} {applied full : Answer}
    {queuedBody : Nat → List Field} (ha : KeepsBooks s applied.1) (hf : KeepsBooks s full.1) :
    KeepsBooks s (supervise l i ask reason s applied full queuedBody).1 := by
  rcases supervise_cases l i ask reason s applied full queuedBody with ⟨-, h⟩ | ⟨-, -, h⟩ | ⟨-, -, h⟩ <;> rw [h]
  · exact ha
  · exact hf
  · exact (quiet_queueEntry l i ask reason s).keeps

theorem quiet_decideEntry (v : Verdict) (e : Entry) (s : State) : Quiet s (decideEntry v e s) := by
  have hc : Quiet s (clearPending e s) := by
    unfold clearPending
    split
    · exact Quiet.touch (quiet_modifyTab (Tab.alike_markLine _ _ _))
    · exact .refl s
  exact hc.same (same_closeEntries v [e] _)

theorem quiet_applyVoidFired {i : Slot} {n : Nat} {x : Line} {s : State} (hx : (s.tab i).line? n = some x)
    (hs : x.state ≠ .entered) : Quiet s (applyVoidFired i n s) := by
  unfold applyVoidFired
  rw [hx]
  dsimp only
  split
  · exact .refl s
  · rename_i st _ tk _
    have hm : Quiet s (s.modifyStation st (Station.removeLine tk.number n)) := SameBooks.quiet ⟨rfl, rfl, rfl, rfl⟩
    split
    · have hl : Quiet s ((s.modifyStation st (Station.removeLine tk.number n)).modifyTab i Tab.oneTicketLess) :=
        hm.modifyTab (Tab.SameHead.alike ⟨rfl, rfl, rfl, rfl, rfl⟩ rfl)
      refine Quiet.touch (Quiet.modifyTab (hl.same (same_raiseLanes .ticketKilled _ _)) (Tab.alike_voidLine ?_ hs))
      exact (congrArg (fun t : Tab => t.line? n) (State.setTab_tab_self _ i _)).trans hx
    · exact Quiet.touch (hm.modifyTab (Tab.alike_voidLine hx hs))

theorem quiet_applyComp (i : Slot) (n : Nat) (s : State) : Quiet s (applyComp i n s) := by
  unfold applyComp
  split
  · rename_i x hx
    split
    · exact .refl s
    · exact Quiet.touch (quiet_modifyTab (Tab.alike_compLine hx))
  · exact .refl s

theorem quiet_applyPrice (i : Slot) (n price : Nat) (s : State) : Quiet s (applyPrice i n price s) := by
  unfold applyPrice
  split
  · rename_i x hx
    exact Quiet.touch (quiet_modifyTab (Tab.alike_priceLine hx price))
  · exact .refl s

theorem quiet_applyPinClear (i : Slot) (s : State) : Quiet s (applyPinClear i s) :=
  Quiet.touch (quiet_modifyTab (Tab.SameHead.alike ⟨rfl, rfl, rfl, rfl, rfl⟩ rfl))

theorem same_applyUndo (i : Slot) (k : Nat) (s : State) : SameBooks s (applyUndo i k s) := by
  unfold applyUndo
  split
  · refine SameBooks.trans ?_ (same_touch i _)
    exact ⟨rfl, rfl, rfl, rfl⟩
  · exact ⟨rfl, rfl, rfl, rfl⟩

/-- The effect of an entry whose precondition holds (R120 to R125): a VOID_FIRED voids a FIRED line. -/
theorem quiet_applyAsk {i : Slot} {ask : Ask} {s : State} (h : askReady i ask s = true) : Quiet s (applyAsk i ask s) := by
  cases ask with
  | voidFired n =>
    simp only [askReady, voidFiredReady] at h
    split at h
    · rename_i x hx
      simp only [Bool.and_eq_true, decide_eq_true_eq] at h
      exact quiet_applyVoidFired hx (by simp [h.1])
    · cases h
  | comp n => exact quiet_applyComp i n s
  | price n p => exact quiet_applyPrice i n p s
  | pinClear => exact quiet_applyPinClear i s
  | undoTender k => exact (same_applyUndo i k s).quiet

theorem approve_keeps (p : Port) (n : Nat) (s : State) : KeepsBooks s (approve p n s).1 := by
  unfold approve
  split
  · exact .refl s
  split
  · exact .refl s
  · unfold approveEntry
    split
    · split
      · exact ((quiet_applyAsk ‹_›).trans (quiet_decideEntry _ _ _)).keeps
      · exact (quiet_decideEntry _ _ _).keeps
    · exact (quiet_decideEntry _ _ _).keeps

theorem deny_keeps (p : Port) (n : Nat) (s : State) : KeepsBooks s (deny p n s).1 := by
  unfold deny
  split
  · exact .refl s
  split
  · exact .refl s
  · exact (quiet_decideEntry _ _ _).keeps

theorem withdraw_keeps (l : Lane) (n : Nat) (s : State) : KeepsBooks s (withdraw l n s).1 := by
  unfold withdraw
  split
  · exact .refl s
  split
  · exact .refl s
  · exact (quiet_decideEntry _ _ _).keeps

theorem passSupervisor_keeps (p : Port) (n : Nat) (s : State) : KeepsBooks s (passSupervisor p n s).1 := by
  unfold passSupervisor
  split
  · exact .refl s
  split
  · exact .refl s
  · rename_i l _
    split
    · exact .refl s
    split
    · exact .refl s
    · have hg : SameBooks s (giveToken (.lane l) s) := ⟨rfl, rfl, rfl, rfl⟩
      exact (hg.trans ((same_raisePort _ _ _).trans ((same_raisePort _ _ _).trans (same_announceQueue _)))).keeps

theorem reclaim_keeps (f : Unit) (s : State) : KeepsBooks s (reclaim f s).1 := by
  unfold reclaim
  split
  · exact .refl s
  · rename_i l _
    have hg : SameBooks s (giveToken .office s) := ⟨rfl, rfl, rfl, rfl⟩
    exact (hg.trans ((same_raiseLanes _ [l] _).trans (same_announceQueue _))).keeps

theorem approvalList_keeps (p : Port) (start : Nat) (s : State) : KeepsBooks s (approvalList p start s).1 := by
  unfold approvalList
  split
  · exact .refl s
  split <;> exact .refl s

theorem results_keeps (l : Lane) (f : Unit) (s : State) : KeepsBooks s (results l f s).1 :=
  SameBooks.keeps ⟨rfl, rfl, rfl, rfl⟩

/-! ### The catalogue (R3 to R10, R18) -/

/-- A count brought into range stands with the reserved quantity it was brought into range for (R2, R7, R10). -/
theorem Item.sound_clamp {it it' : Item} (c : Nat) (h : it.sound = true) (hr : it'.reserved = it.reserved)
    (hm : it'.mode = .limited) (hc : it'.count = it.clampCount c) : it'.sound = true := by
  simp only [Item.sound, Bool.and_eq_true, decide_eq_true_eq, hr, hm, hc, Item.clampCount, Config.maxCount] at h ⊢
  omega

theorem loadItem_keeps (f : LoadItemFields) (s : State) : KeepsBooks s (loadItem f s).1 := by
  unfold loadItem
  split
  · rename_i i c st g m _ _ _ _ _
    split
    · exact .refl s
    · refine keeps_editItem rfl fun h => ?_
      cases m with
      | limited => exact Item.sound_clamp f.count h rfl rfl rfl
      | unlimited =>
        simp only [Item.sound, Bool.and_eq_true, decide_eq_true_eq] at h
        simp [Item.sound, loadedCount, h.1.1]
  · exact .refl s

theorem withdrawItem_keeps (n : Nat) (s : State) : KeepsBooks s (withdrawItem n s).1 := by
  unfold withdrawItem
  split
  · exact .refl s
  split
  · exact .refl s
  · exact .refl s
  · exact keeps_editItem rfl id

theorem setCount_keeps (p : Port) (f : SetCountFields) (s : State) : KeepsBooks s (setCount p f s).1 := by
  unfold setCount
  split
  · exact .refl s
  dsimp only
  split
  · exact .refl s
  split
  · exact keeps_editItem rfl fun h => Item.sound_clamp f.count h rfl rfl rfl
  · exact .refl s

theorem loadModifier_keeps (f : LoadModifierFields) (s : State) : KeepsBooks s (loadModifier f s).1 := by
  unfold loadModifier
  split
  · exact .refl s
  split
  · exact .refl s
  · exact SameBooks.keeps ⟨rfl, rfl, rfl, rfl⟩

theorem setTaxRate_keeps (f : SetTaxRateFields) (s : State) : KeepsBooks s (setTaxRate f s).1 := by
  unfold setTaxRate
  split
  · exact .refl s
  split
  · exact .refl s
  · exact SameBooks.keeps ⟨rfl, rfl, rfl, rfl⟩

theorem setGroupPriority_keeps (f : SetGroupPriorityFields) (s : State) : KeepsBooks s (setGroupPriority f s).1 := by
  unfold setGroupPriority
  split
  · rename_i g pr _ _
    have h : SameBooks s { s with priorities := s.priorities.set g pr } := ⟨rfl, rfl, rfl, rfl⟩
    exact KeepsBooks.answer (h.trans (same_recomputeRails allStations _)).keeps
  · exact .refl s

theorem availability_keeps (first : Nat) (s : State) : KeepsBooks s (availability first s).1 := by
  unfold availability
  split <;> exact .refl s

/-! ### FIRE (R68 to R77) -/

theorem fireLines_keeps (i : Slot) (number : Nat) (ns : List Nat) (s : State) :
    KeepsBooks s (ns.foldl (fireLine i number) s) := by
  induction ns generalizing s with
  | nil => exact .refl s
  | cons n ns ih => exact (fireLine_keeps i number s n).trans (ih _)

theorem createTicket_keeps (i : Slot) (s : State) (d : Draft) : KeepsBooks s (createTicket i s d) := by
  unfold createTicket
  refine KeepsBooks.trans (Quiet.keeps ?_) (fireLines_keeps _ _ _ _)
  refine Quiet.trans (t := (State.modifyStation { s with ticketCounter := _, fireSeq := _ } d.station _))
    (SameBooks.quiet ⟨rfl, rfl, rfl, rfl⟩) (quiet_modifyTab (Tab.SameHead.alike ⟨rfl, rfl, rfl, rfl, rfl⟩ rfl))

theorem createTickets_keeps (i : Slot) (ds : List Draft) (s : State) : KeepsBooks s (createTickets i ds s).1 := by
  induction ds generalizing s with
  | nil => exact .refl s
  | cons d ds ih => exact (createTicket_keeps i s d).trans (ih _)

theorem fire_keeps (l : Lane) (f : FireFields) (s : State) : KeepsBooks s (fire l f s).1 := by
  refine withTab_keeps fun i s _ => ?_
  dsimp only
  split
  · exact .refl s
  split
  · exact .refl s
  split
  · exact .refl s
  split
  · exact .refl s
  split
  · exact .refl s
  split
  · exact .refl s
  split
  · exact .refl s
  · exact (createTickets_keeps i _ s).same ((same_recomputeRails _ _).trans (same_touch i _))

/-! ### Tabs (R25 to R47) -/

theorem nextNumber_iterate_add {top n k : Nat} (h : n + k ≤ top) : (nextNumber top)^[k] n = n + k := by
  induction k with
  | zero => rfl
  | succ k ih =>
    rw [Function.iterate_succ_apply', ih (by omega), nextNumber, if_pos (by omega)]
    omega

/-- Counting on from any number reaches every number of the range within one round. -/
theorem nextNumber_reaches {top m : Nat} (n : Nat) (h1 : 1 ≤ m) (h2 : m ≤ top) :
    ∃ k ≤ top, (nextNumber top)^[k] n = m := by
  have hone : (nextNumber top)^[m - 1] 1 = m := (nextNumber_iterate_add (by omega)).trans (by omega)
  rcases Nat.lt_or_ge top n with hn | hn
  · have hw : nextNumber top n = 1 := if_neg (by omega)
    exact ⟨m - 1 + 1, by omega, by rw [Function.iterate_succ_apply, hw, hone]⟩
  rcases Nat.lt_or_ge m n with hm | hm
  · have htop : (nextNumber top)^[top - n] n = top := (nextNumber_iterate_add (by omega)).trans (by omega)
    have hw : nextNumber top top = 1 := if_neg (Nat.lt_irrefl _)
    exact ⟨m - 1 + 1 + (top - n), by omega, by
      rw [Function.iterate_add_apply, htop, Function.iterate_succ_apply, hw, hone]⟩
  · exact ⟨m - n, by omega, (nextNumber_iterate_add (by omega)).trans (by omega)⟩

/-- Where the search ends at a number in use, every number it passed is in use. -/
theorem firstUnused_used {used : Nat → Bool} {top fuel n : Nat} (h : used (firstUnused used top fuel n) = true) {k : Nat}
    (hk : k ≤ fuel) : used ((nextNumber top)^[k] n) = true := by
  induction fuel generalizing n k with
  | zero => rwa [Nat.le_zero.mp hk]
  | succ fuel ih =>
    unfold firstUnused at h
    split at h
    · cases k with
      | zero => assumption
      | succ k => exact ih h (Nat.le_of_succ_le_succ hk)
    · exact absurd h ‹_›

theorem tabHeld_iff {s : State} {n : Nat} : s.tabHeld n = true ↔ ∃ i, s.bears i n = true := by
  simp [State.tabHeld]

/-- The number of the next tab is not held, whatever the counter (R25): there are more numbers than slots. -/
theorem nextTabNumber_unheld (s : State) : s.tabHeld s.nextTabNumber = false := by
  by_contra h
  have hall (m : Fin 9999) : ∃ i, s.bears i (m.val + 1) = true := by
    obtain ⟨k, hk, e⟩ := nextNumber_reaches (top := Config.maxTabNumber) (m := m.val + 1) s.tabCounter (by omega)
      (by have := m.isLt; unfold Config.maxTabNumber; omega)
    exact tabHeld_iff.mp (e ▸ firstUnused_used (Bool.not_eq_false _ ▸ h) hk)
  choose slot hslot using hall
  have hinj : Function.Injective slot := fun a b hab => by
    have ha := (bears_iff.mp (hslot a)).2
    have hb := (bears_iff.mp (hslot b)).2
    rw [hab] at ha
    exact Fin.ext (by omega)
  have := Fintype.card_le_of_injective slot hinj
  simp at this

theorem openTab_keeps (l : Lane) (f : OpenTabFields) (s : State) : KeepsBooks s (openTab l f s).1 := by
  unfold openTab
  split
  · exact .refl s
  rename_i i hi
  split
  · exact .refl s
  have hfree : (s.tab i).state = .free := by simpa using List.find?_some hi
  refine .of_items rfl fun hs => ?_
  have hnone := hs.noneEntered (i := i) (by simp [hfree])
  have hhand := hs.2.notInHand (i := i) (.inl (by simp [hfree]))
  have hqueue := hs.2.notQueued (i := i) (by simp [hfree])
  refine ⟨hs.1.change rfl rfl hnone Tab.noneEntered_blank,
    hs.2.change rfl (fun _ => Tab.noneEntered_blank) (fun h => absurd rfl h) (fun n k hk _ hn => ?_) hs.2.2.1
      (fun job hj => .inl ⟨hj, hhand job hj⟩) hs.2.2.2.2.1 fun n hn => .inl ⟨hn, hqueue n hn⟩⟩
  have hheld : s.tabHeld n = true := tabHeld_iff.mpr ⟨k, (findTab_eq_some.mp hk).2.1⟩
  have hn' : s.nextTabNumber = n := hn
  rw [← hn', nextTabNumber_unheld] at hheld
  cases hheld

theorem tabView_keeps (p : Port) (f : TabPageFields) (s : State) : KeepsBooks s (tabView p f s).1 :=
  withTab_keeps fun i s _ => by
    dsimp only
    split <;> exact .refl s

theorem addLine_keeps (l : Lane) (f : AddLineFields) (s : State) : KeepsBooks s (addLine l f s).1 := by
  refine withTab_keeps fun i s _ => ?_
  dsimp only
  split
  · exact .refl s
  split
  · exact .refl s
  rename_i hopen
  split
  · exact .refl s
  split
  · exact .refl s
  split
  · exact .refl s
  split
  · exact .refl s
  split
  · exact .refl s
  rename_i hroom
  split
  · exact .refl s
  · exact enterLine_keeps (not_not.mp hopen) rfl (Nat.le_of_not_lt hroom)

/-- A pull-back (R38): the line was FIRED, and the count rises. -/
theorem pullBack_keeps {i : Slot} {n : Nat} {x : Line} {s : State} (st : StationNo) (tk : Ticket)
    (hx : (s.tab i).line? n = some x) (hs : x.state ≠ .entered) : KeepsBooks s (pullBack i n x st tk s) := by
  unfold pullBack
  dsimp only
  let s1 := s.modifyStation st (Station.removeLine tk.number n)
  let s2 := if tk.emptiedBy n then recomputeRail st (s1.modifyTab i Tab.oneTicketLess) else s1
  have h2 : Quiet s s2 ∧ (s2.tab i).line? n = some x := by
    have h1 : Quiet s s1 := SameBooks.quiet ⟨rfl, rfl, rfl, rfl⟩
    by_cases he : tk.emptiedBy n = true
    · simp only [s2, if_pos he]
      have hl : Quiet s1 (s1.modifyTab i Tab.oneTicketLess) :=
        quiet_modifyTab (Tab.SameHead.alike ⟨rfl, rfl, rfl, rfl, rfl⟩ rfl)
      have hr := same_recomputeRail st (s1.modifyTab i Tab.oneTicketLess)
      refine ⟨(h1.trans hl).same hr, ?_⟩
      rw [State.tab_congr hr.tabs]
      exact (congrArg (fun t : Tab => t.line? n) (State.setTab_tab_self _ i _)).trans hx
    · simp only [s2, if_neg he]
      exact ⟨h1, hx⟩
  have h3 := (h2.1.modifyTab (f := fun t => t.voidLine n x) (Tab.alike_voidLine h2.2 hs)).keeps
  exact (h3.trans (keeps_editItem (Item.restore_reserved _ _) (Item.sound_restore _))).same (same_touch i _)

theorem voidLine_keeps (l : Lane) (f : VoidLineFields) (s : State) : KeepsBooks s (voidLine l f s).1 := by
  refine withTab_keeps fun i s _ => ?_
  dsimp only
  split
  · exact .refl s
  split
  · exact .refl s
  split
  · exact .refl s
  rename_i x hx
  split
  · exact .refl s
  split
  · exact .refl s
  · exact .refl s
  · exact strikeEntered_keeps hx ‹_›
  · have hfired : x.state ≠ .entered := by simp [*]
    split
    · exact pullBack_keeps _ _ hx hfired
    · exact supervise_keeps (quiet_applyVoidFired hx hfired).keeps (.refl s)
    · exact .refl s

theorem withOpenLine_keeps {l : Lane} {i : Slot} {n : Nat} {ok : Bool} {s : State} {k : Line → Answer}
    (h : ∀ x, KeepsBooks s (k x).1) : KeepsBooks s (withOpenLine l i n ok s k).1 := by
  unfold withOpenLine
  dsimp only
  split
  · exact .refl s
  split
  · exact .refl s
  split
  · exact .refl s
  split
  · exact .refl s
  split
  · exact .refl s
  split
  · exact .refl s
  · exact h _

theorem compLine_keeps (l : Lane) (f : CompLineFields) (s : State) : KeepsBooks s (compLine l f s).1 :=
  withTab_keeps fun i s _ => withOpenLine_keeps fun x => by
    split
    · exact .refl s
    · exact supervise_keeps (quiet_applyComp i _ s).keeps (.refl s)

theorem overridePrice_keeps (l : Lane) (f : OverridePriceFields) (s : State) : KeepsBooks s (overridePrice l f s).1 :=
  withTab_keeps fun i s _ => withOpenLine_keeps fun x => by
    dsimp only
    split
    · exact .refl s
    · exact supervise_keeps (quiet_applyPrice i _ _ s).keeps (.refl s)

/-- A tab changed in nothing its life depends on. -/
theorem setTab_keeps {s : State} {i : Slot} {u : Tab} (h : (s.tab i).SameHead u) (hl : u.lines = (s.tab i).lines) :
    KeepsBooks s (s.setTab i u) := (quiet_setTab (h.alike hl)).keeps

theorem follow_keeps (l : Lane) (n : Nat) (s : State) : KeepsBooks s (follow l n s).1 :=
  withTab_keeps fun i s _ => by
    dsimp only
    split
    · exact .refl s
    split
    · exact .refl s
    · exact setTab_keeps ⟨rfl, rfl, rfl, rfl, rfl⟩ rfl

theorem unfollow_keeps (l : Lane) (n : Nat) (s : State) : KeepsBooks s (unfollow l n s).1 :=
  withTab_keeps fun _ _ _ => setTab_keeps ⟨rfl, rfl, rfl, rfl, rfl⟩ rfl

theorem setService_keeps (p : Port) (f : SetServiceFields) (s : State) : KeepsBooks s (setService p f s).1 :=
  withTab_keeps fun i s _ => by
    dsimp only
    split
    · exact .refl s
    split
    · exact .refl s
    split
    · exact .refl s
    split
    · exact .refl s
    · exact KeepsBooks.touch (setTab_keeps ⟨rfl, rfl, rfl, rfl, rfl⟩ rfl)

/-! ### Protection (R52 to R57) -/

theorem unlock_keeps (l : Lane) (f : TabPinFields) (s : State) : KeepsBooks s (unlock l f s).1 :=
  withTab_keeps fun i s _ => by
    dsimp only
    split
    · exact .refl s
    split
    · exact .refl s
    split
    · exact setTab_keeps ⟨rfl, rfl, rfl, rfl, rfl⟩ rfl
    split
    · exact .refl s
    split
    · exact setTab_keeps ⟨rfl, rfl, rfl, rfl, rfl⟩ rfl
    split
    · exact KeepsBooks.touch (setTab_keeps ⟨rfl, rfl, rfl, rfl, rfl⟩ rfl)
    · exact setTab_keeps ⟨rfl, rfl, rfl, rfl, rfl⟩ rfl

theorem lock_keeps (l : Lane) (n : Nat) (s : State) : KeepsBooks s (lock l n s).1 :=
  withTab_keeps fun i s _ => by
    dsimp only
    split
    · exact .refl s
    · exact setTab_keeps ⟨rfl, rfl, rfl, rfl, rfl⟩ rfl

theorem setPin_keeps (l : Lane) (f : TabPinFields) (s : State) : KeepsBooks s (setPin l f s).1 :=
  withTab_keeps fun i s _ => by
    dsimp only
    split
    · exact .refl s
    split
    · exact .refl s
    split
    · exact .refl s
    split
    · exact .refl s
    · exact KeepsBooks.touch (setTab_keeps ⟨rfl, rfl, rfl, rfl, rfl⟩ rfl)

theorem clearLockout_keeps (l : Lane) (f : ClearLockoutFields) (s : State) : KeepsBooks s (clearLockout l f s).1 :=
  withTab_keeps fun i s _ => by
    dsimp only
    split
    · exact .refl s
    split
    · exact .refl s
    split
    · exact .refl s
    · exact supervise_keeps (quiet_applyPinClear i s).keeps (.refl s)

end Sys2Proof.Machine
end

section
/-! SUPPORT. What the blocks of settlement, stations, ports and power leave of the books, and the two invariants of R2. -/

namespace Sys2Proof.Machine

/-! ### The split engine (R132 to R152) -/

/-- The engine taking up a waiting split has the same splits in hand (R149). -/
theorem same_takeUp (s : State) : SameBooks s (takeUp s) := by
  unfold takeUp
  split
  · exact ⟨rfl, rfl, by simp [State.jobs, beginJob, *], rfl⟩
  · exact ⟨rfl, rfl, rfl, rfl⟩

/-- An engine that stays idle after taking up has nothing waiting (R149). -/
theorem takeUp_idle {s : State} (h : (takeUp s).computing = none) : (takeUp s).waiting = [] := by
  unfold takeUp at h ⊢
  split at h
  · cases h
  · rename_i hne
    cases hw : s.waiting with
    | nil => rfl
    | cons job rest => exact absurd hw (hne job rest h)

/-- A split handed to the engine joins those in hand at the end (R149). -/
theorem handToEngine_same {job : SplitJob} {s : State} (h : s.computing = none → s.waiting = []) :
    SameBooks { s with waiting := s.waiting ++ [job] } (handToEngine job s) := by
  unfold handToEngine
  split
  · rename_i hc
    exact ⟨rfl, rfl, by simp [State.jobs, beginJob, hc, h hc], rfl⟩
  · exact ⟨rfl, rfl, rfl, rfl⟩

/-- The record of a tab whose split is accepted (R148). -/
def Tab.inSplit (l : Lane) (d : ShareDef) (n : Nat) (refs : List ShareNo) (t : Tab) : Tab :=
  { t with state := .settling, owner := some l, claim := none
           split := some { mode := shapeMode d, count := n, refs := refs, totals := none } }

/-- A split accepted (R148): its tab SETTLING, and the split the last of those in hand. -/
theorem acceptSplit_same (l : Lane) (tag : Nat) (i : Slot) (d : ShareDef) (n : Nat) (s : State) :
    ∃ t : State, SameBooks t (acceptSplit l tag i d n s) ∧ t.items = s.items
      ∧ t.tabs = s.tabs.set i ((s.tab i).inSplit l d n (s.pickShares n))
      ∧ t.jobs = s.jobs ++ [{ tab := (s.tab i).number, shape := d, count := n }] ∧ t.closeQueue = s.closeQueue := by
  let job : SplitJob := { tab := (s.tab i).number, shape := d, count := n }
  let s1 := (reserveShares (s.pickShares n) (s.tab i).number s).modifyTab i (Tab.inSplit l d n (s.pickShares n))
  have h1 := same_takeUp s1
  have h2 := handToEngine_same (job := job) (takeUp_idle (s := s1))
  have h3 (x : PortEntry) : SameBooks (handToEngine job (takeUp s1)) ((handToEngine job (takeUp s1)).setPort l x) :=
    ⟨rfl, rfl, rfl, rfl⟩
  refine ⟨_, h2.trans ((h3 _).trans (same_touch i _)), h1.items, h1.tabs, ?_, h1.queue⟩
  have hj : (takeUp s1).jobs = s.jobs := h1.jobs
  rw [← hj]
  exact (List.append_assoc _ _ _).symm

theorem TabBooks.acceptSplit {s : State} (hs : TabBooks s) {l : Lane} {tag : Nat} {i : Slot} {d : ShareDef} {n : Nat}
    (hf : s.findTab (s.tab i).number = some i) (ho : (s.tab i).state = .opened) (hnone : (s.tab i).NoneEntered) :
    TabBooks (acceptSplit l tag i d n s) := by
  obtain ⟨t, hsame, hitems, htabs, hjobs, hqueue⟩ := acceptSplit_same l tag i d n s
  have hhand := hs.2.notInHand (i := i) (.inl (by simp [ho]))
  have hnq := hs.2.notQueued (i := i) (by simp [ho])
  have hnone' : ((s.tab i).inSplit l d n (s.pickShares n)).NoneEntered := .of_lines rfl hnone
  refine hsame.keeps.books ⟨hs.1.change htabs hitems hnone hnone', hs.2.change htabs (fun _ => hnone') (fun _ => rfl) ?_ ?_ ?_
    (hqueue ▸ hs.2.2.2.2.1) fun m hm => .inl ⟨hqueue ▸ hm, hnq m (hqueue ▸ hm)⟩⟩
  · exact fun m _ _ _ hm => bears_iff.mpr ⟨by simp [ho], hm⟩
  · rw [hjobs, List.map_append]
    refine List.nodup_append.mpr ⟨hs.2.2.1, List.nodup_singleton _, fun a ha b hb e => ?_⟩
    obtain ⟨job, hjob, rfl⟩ := List.mem_map.mp ha
    rw [List.map_singleton, List.mem_singleton] at hb
    exact hhand job hjob (by rw [e, hb]; exact hf)
  · intro job hjob
    rw [hjobs] at hjob
    rcases List.mem_append.mp hjob with hjob | hjob
    · exact .inl ⟨hjob, hhand job hjob⟩
    · rw [List.mem_singleton.mp hjob]
      exact .inr ⟨hf, rfl, rfl, rfl, rfl⟩

theorem acceptSplit_keeps {s : State} {l : Lane} {tag : Nat} {i : Slot} {d : ShareDef} {n : Nat}
    (hf : s.findTab (s.tab i).number = some i) (ho : (s.tab i).state = .opened) (hnone : (s.tab i).NoneEntered) :
    KeepsBooks s (acceptSplit l tag i d n s) := by
  obtain ⟨t, hsame, hitems, -⟩ := acceptSplit_same l tag i d n s
  exact .of_items (hsame.items.trans hitems) fun hs => hs.acceptSplit hf ho hnone

theorem findTab_number {s : State} {n : Nat} {i : Slot} (h : s.findTab n = some i) : s.findTab (s.tab i).number = some i := by
  rwa [(findTab_some h).2.2.2]

theorem split_keeps (tag : Nat) (l : Lane) (f : SplitFields) (s : State) : KeepsBooks s (split tag l f s).1 := by
  refine withTab_keeps fun i s hf => ?_
  dsimp only
  split
  · exact .refl s
  split
  · exact .refl s
  rename_i hopen
  split
  · exact .refl s
  rename_i hheld
  split
  · exact .refl s
  split
  · exact .refl s
  split
  · exact .refl s
  split
  · exact .refl s
  · refine acceptSplit_keeps (findTab_number hf) (not_not.mp hopen) fun x hx he => ?_
    have hnil := List.length_eq_zero_iff.mp (not_not.mp hheld)
    exact List.filter_eq_nil_iff.mp hnil x hx (by simpa using he)

/-- The hand-over of a computation (R145): one split less in hand, the tab's split complete, the tab still SETTLING. -/
theorem handOver_books {s : State} (hs : TabBooks s) {c : Computation} {i : Slot} (hc : s.computing = some c)
    (hf : s.findTab c.job.tab = some i) :
    TabBooks (handOver i c s) ∧ NotInHand i (handOver i c s) ∧ ((handOver i c s).tab i).state = .settling
      ∧ (handOver i c s).findTab ((handOver i c s).tab i).number = some i := by
  let u : Tab := { s.tab i with split := (s.tab i).split.map fun r => { r with totals := some (tabTotals c.inputs) } }
  have hjobs : s.jobs = c.job :: s.waiting := by simp [State.jobs, hc]
  obtain ⟨k, hk, hst, -⟩ := hs.2.2.2.1 c.job (by simp [hjobs])
  cases hf.symm.trans hk
  have htabs : (handOver i c s).tabs = s.tabs.set i u := rfl
  have hself : (handOver i c s).tab i = u := State.setTab_tab_self s i u
  have hnd := hs.2.2.1
  rw [hjobs, List.map_cons, List.nodup_cons] at hnd
  have hhand : ∀ job ∈ s.waiting, s.findTab job.tab ≠ some i := fun job hjob h =>
    hnd.1 (findTab_inj hf h ▸ List.mem_map_of_mem hjob)
  have hnq := hs.2.notQueued (i := i) (by simp [hst])
  have hnone := hs.noneEntered (i := i) (by simp [hst])
  have hfind (n : Nat) : (handOver i c s).findTab n = s.findTab n := findTab_congr fun j => by
    simp only [State.bears, State.tab_congr (s := s.setTab i u) htabs, State.setTab_tab]
    split
    · subst_vars; rfl
    · rfl
  refine ⟨⟨hs.1.change htabs rfl hnone (.of_lines rfl hnone), hs.2.change htabs (fun _ => .of_lines rfl hnone) (fun _ => hst) ?_
    hnd.2 (fun job hjob => .inl ⟨by rw [hjobs]; exact .tail _ hjob, hhand job hjob⟩) hs.2.2.2.2.1
    fun n hn => .inl ⟨hn, hnq n hn⟩⟩, fun job hjob => ?_, ?_, ?_⟩
  · exact fun n _ _ _ hn => bears_iff.mpr ⟨by simp [hst], hn⟩
  · rw [hfind]; exact hhand job hjob
  · rw [hself]; exact hst
  · rw [hself, hfind]; exact findTab_number hf

theorem settle_items (i : Slot) (l : Lane) (c : Computation) (s : State) : (settle i l c s).items = s.items := by
  unfold settle
  dsimp only
  split
  · rw [(same_answerSplit _ _ _).items, closeTab_items]
  · rw [(same_answerSplit _ _ _).items, (same_touch _ _).items]; rfl

theorem TabBooks.settle {s : State} (hs : TabBooks s) {i : Slot} {l : Lane} {c : Computation} (hhand : NotInHand i s)
    (hst : (s.tab i).state = .settling) (hf : s.findTab (s.tab i).number = some i) : TabBooks (settle i l c s) := by
  have hnone := hs.noneEntered (i := i) (by simp [hst])
  unfold Machine.settle
  dsimp only
  split
  · exact (same_answerSplit _ _ _).keeps.books (hs.close hf hst hhand)
  · refine (same_answerSplit _ _ _).keeps.books ((same_touch _ _).keeps.books ?_)
    exact hs.change (u := { s.tab i with claim := some Config.claimSeconds }) ⟨rfl, rfl, rfl, rfl⟩ hhand
      (hs.2.notQueued (by simp [hst])) hnone (.of_lines rfl hnone) (fun _ => hst) fun _ => ⟨by simp [hst], rfl⟩

/-- A completion (R145, R151, R152). -/
theorem complete_keeps (s : State) : KeepsBooks s (complete s) := by
  unfold complete
  split
  · exact .refl s
  rename_i c hc
  split
  · rename_i hf
    refine .of_items rfl fun hs => absurd (hs.2.2.2.1 c.job (by simp [State.jobs, hc])) ?_
    simp [hf]
  rename_i i hf
  dsimp only
  split
  · refine .of_items (settle_items _ _ _ _) fun hs => ?_
    obtain ⟨hb, hhand, hst, hf'⟩ := handOver_books hs hc hf
    exact hb.settle hhand hst hf'
  · refine .of_items (releaseSplit_items _ _) fun hs => ?_
    obtain ⟨hb, hhand, hst, -⟩ := handOver_books hs hc hf
    exact hb.release hst hhand

/-! ### Settlement (R154 to R166) -/

theorem shareView_keeps (p : Port) (f : TabPageFields) (s : State) : KeepsBooks s (shareView p f s).1 :=
  withTab_keeps fun i s _ => by
    dsimp only
    split
    · exact .refl s
    split <;> exact .refl s

/-- A request on a complete split of its own (R155, R157, R160): its tab is SETTLING and none the engine has in hand. -/
theorem withOwnSplit_keeps {l : Lane} {i : Slot} {s : State} {k : SplitRef → Answer}
    (h : ∀ r, (s.tab i).state = .settling → (s.tab i).splitComplete = true → KeepsBooks s (k r).1) :
    KeepsBooks s (withOwnSplit l i s k).1 := by
  unfold withOwnSplit
  dsimp only
  split
  · exact .refl s
  split
  · exact .refl s
  rename_i r hr
  split
  · exact .refl s
  rename_i hst
  split
  · exact .refl s
  · rw [not_or, not_not] at hst
    exact h r hst.1 (by simpa [Tab.splitComplete, hr] using Option.isSome_iff_ne_none.mpr hst.2)

theorem TabsHold.notInHand_of_complete {s : State} (hs : TabsHold s) {i : Slot} (h : (s.tab i).splitComplete = true) :
    NotInHand i s := hs.notInHand (.inr (.inr (by simp [h])))

theorem takeTender_keeps {i : Slot} {s : State} (j : ShareNo) (index : Nat) (sh : Share) (d : Tender)
    (hst : (s.tab i).state = .settling) (hsp : (s.tab i).splitComplete = true) (hf : s.findTab (s.tab i).number = some i) :
    KeepsBooks s (takeTender i j index sh d s).1 := by
  have h : SameBooks s (touch i (s.setShare j (.held (sh.addTender d)))) :=
    SameBooks.trans (t := s.setShare j (.held (sh.addTender d))) ⟨rfl, rfl, rfl, rfl⟩ (same_touch i _)
  refine KeepsBooks.answer ?_
  split
  · refine .of_items ((closeTab_items _ _).trans h.items) fun hs => ?_
    have hs' := h.keeps.books hs
    refine hs'.close ?_ ?_ (hs'.2.notInHand_of_complete ?_)
    · rw [h.findTab, State.tab_congr h.tabs]; exact hf
    · rw [State.tab_congr h.tabs]; exact hst
    · rw [State.tab_congr h.tabs]; exact hsp
  · exact h.keeps

theorem tender_keeps (l : Lane) (f : TenderFields) (s : State) : KeepsBooks s (tender l f s).1 :=
  withTab_keeps fun i s hf => withOwnSplit_keeps fun _ hst hsp => by
    split
    · split
      · exact .refl s
      split
      · exact .refl s
      dsimp only
      split
      · exact .refl s
      split
      · exact .refl s
      · exact .refl s
      · exact takeTender_keeps _ _ _ _ hst hsp (findTab_number hf)
    · exact .refl s

theorem undoTender_keeps (l : Lane) (f : UndoTenderFields) (s : State) : KeepsBooks s (undoTender l f s).1 :=
  withTab_keeps fun i s _ => withOwnSplit_keeps fun _ _ _ => by
    split
    · exact .refl s
    split
    · exact .refl s
    split
    · exact .refl s
    split
    · exact .refl s
    · exact supervise_keeps (same_applyUndo i _ s).keeps (.refl s)

theorem dropSplit_keeps (l : Lane) (n : Nat) (s : State) : KeepsBooks s (dropSplit l n s).1 :=
  withTab_keeps fun i s _ => withOwnSplit_keeps fun _ hst hsp => by
    split
    · exact .refl s
    · exact KeepsBooks.answer (.of_items (releaseSplit_items i s) fun hs => hs.release hst (hs.2.notInHand_of_complete hsp))

/-- A claim that has run out is of a tab the engine has not in hand (R148, R162). -/
theorem lapseClaim_keeps (n : Nat) (s : State) : KeepsBooks s (lapseClaim n s) := by
  unfold lapseClaim
  split
  · exact .refl s
  rename_i i _
  split
  · rename_i h
    have hr := same_raiseLanes .claimLapsed (s.tab i).owner.toList s
    refine hr.keeps.trans (.of_items (loseOwner_items i _) fun hs => ?_)
    exact hs.loseOwner h.2 (hs.2.notInHand (i := i) (.inr (.inl (by rw [State.tab_congr hr.tabs]; simp [h.1]))))
  · exact .refl s

theorem adopt_keeps (l : Lane) (n : Nat) (s : State) : KeepsBooks s (adopt l n s).1 := by
  refine withTab_keeps fun i s _ => ?_
  dsimp only
  split
  · exact .refl s
  split
  · exact .refl s
  rename_i r hr
  split
  · exact .refl s
  rename_i hst
  rw [not_or, not_not] at hst
  split
  · split <;> exact .refl s
  · have hsp : (s.tab i).splitComplete ≠ false := by
      simpa [Tab.splitComplete, hr, Option.isSome_iff_ne_none] using hst.2
    refine KeepsBooks.answer (KeepsBooks.touch (quiet_setTab ?_).keeps)
    exact Tab.SameLife.alike ⟨rfl, rfl, fun _ => .of_lines rfl, fun _ h => absurd h hsp, fun _ => .inr hst.1⟩ rfl

/-- The record of a tab whose summary has been taken, before it is EXPORTED or FREE (R166). -/
def Tab.unsplit (t : Tab) : Tab := { t with split := none }

theorem TabBooks.exportTab {s : State} (hs : TabBooks s) {i : Slot} (hst : (s.tab i).state = .closed) (hnq : NotQueued i s) :
    TabBooks (exportTab i s) := by
  let s1 := (freeShares (s.tab i).shareRefs s).modifyTab i Tab.unsplit
  have hq : Quiet s s1 := Quiet.modifyTab (SameBooks.quiet ⟨rfl, rfl, rfl, rfl⟩)
    (Tab.SameLife.alike ⟨rfl, rfl, fun _ => .of_lines rfl, fun hc _ => ⟨hc, rfl⟩, fun h => .inl h⟩ rfl)
  have hs1 := hq.keeps.books hs
  have hself : s1.tab i = (s.tab i).unsplit := State.setTab_tab_self _ i _
  have hst1 : (s1.tab i).state = .closed := by rw [hself]; exact hst
  have hnq1 : NotQueued i s1 := fun n hn => by
    rw [findTab_congr (s := s) fun j => by simp only [State.bears, (hq.tabs j).number, (hq.tabs j).state]]
    exact hnq n hn
  have hhand := hs1.2.notInHand (i := i) (.inl (by simp [hst1]))
  have hnone := hs1.noneEntered (i := i) (by simp [hst1])
  have howner : (s1.tab i).owner = none := by
    by_contra h
    exact absurd (hst1.symm.trans (hs1.2.2.2.2.2.2 i h)) (by simp)
  unfold Machine.exportTab
  dsimp only
  split
  · exact hs1.free hhand hnq1 (by simp [hst1])
  · refine (same_touch i _).keeps.books ?_
    exact hs1.change (u := { s1.tab i with state := .exported }) ⟨rfl, rfl, rfl, rfl⟩ hhand hnq1 hnone (.of_lines rfl hnone)
      (fun h => absurd howner h) fun _ => ⟨by simp [hst1], rfl⟩

theorem exportTab_items (i : Slot) (s : State) : (exportTab i s).items = s.items := by
  unfold exportTab
  dsimp only
  split
  · exact (freeTab_same i _).items
  · exact (same_touch i _).items

/-- The head of the close queue taken (R166): the rest names other tabs. -/
theorem takeClosed_keeps (f : Unit) (s : State) : KeepsBooks s (takeClosed f s).1 := by
  unfold takeClosed
  split
  · exact .refl s
  rename_i n rest hq
  have hrest (hs : TabBooks s) : TabBooks { s with closeQueue := rest } ∧ n ∉ rest := by
    obtain ⟨hr, hlines, hnd, hjobs, hqnd, hqueue, howner⟩ := hs
    rw [hq, List.nodup_cons] at hqnd
    exact ⟨⟨hr, hlines, hnd, hjobs, hqnd.2, fun m hm => hqueue m (by rw [hq]; exact .tail _ hm), howner⟩, hqnd.1⟩
  dsimp only
  split
  · exact .of_items rfl fun hs => (hrest hs).1
  · rename_i i hi
    have hi' : s.findTab n = some i := hi
    refine .of_items (exportTab_items i _) fun hs => (hrest hs).1.exportTab (i := i) ?_ fun m hm h => ?_
    · obtain ⟨k, hk, hst⟩ := hs.2.2.2.2.2.1 n (by simp [hq])
      cases hi'.symm.trans hk
      exact hst
    · exact (hrest hs).2 (findTab_inj hi' h ▸ hm)

/-! ### Stations (R93 to R107) -/

theorem rail_keeps (st : StationNo) (f : Unit) (s : State) : KeepsBooks s (rail st f s).1 := .refl s

theorem take_keeps (st : StationNo) (f : Unit) (s : State) : KeepsBooks s (take st f s).1 := by
  unfold take
  split
  · exact .refl s
  rename_i t _ _
  split
  · exact .refl s
  · have h : SameBooks s (s.modifyStation st (Station.takeTicket t)) := ⟨rfl, rfl, rfl, rfl⟩
    exact KeepsBooks.answer (h.trans (same_recomputeRail st _)).keeps

theorem serveLine_held (x : Line) (m : ItemNo) : (serveLine x).held m = x.held m := by
  unfold serveLine
  split
  · rename_i h
    rw [Line.held_other (by simp), Line.held_other (by simp [h])]
  · rfl

theorem serveLine_entered {x : Line} (h : (serveLine x).state = .entered) : x.state = .entered := by
  unfold serveLine at h
  split at h
  · cases h
  · exact h

theorem unserveLine_held (x : Line) (m : ItemNo) : (unserveLine x).held m = x.held m := by
  unfold unserveLine
  split
  · rename_i h
    rw [Line.held_other (by simp), Line.held_other (by simp [h])]
  · rfl

theorem unserveLine_entered {x : Line} (h : (unserveLine x).state = .entered) : x.state = .entered := by
  unfold unserveLine at h
  split at h
  · cases h
  · exact h

/-- The tab's side of a BUMP (R97); an EXPORTED tab without live tickets is FREE (R48). -/
theorem serveTab_keeps (i : Slot) (t : Ticket) (s : State) : KeepsBooks s (serveTab i t s) := by
  have h := (Quiet.touch (i := i) (quiet_modifyTab (s := s) (i := i) (f := fun tab => (tab.changeLines t.lines serveLine).oneTicketLess)
    (Tab.alike_changeLines _ _ _ (fun _ => serveLine_entered) serveLine_held))).keeps
  unfold serveTab
  dsimp only
  split
  · rename_i hst
    refine h.trans (.of_items (freeTab_same i _).items fun hs => ?_)
    exact hs.free (hs.2.notInHand (.inl (by simp [hst.1]))) (hs.2.notQueued (by simp [hst.1])) (by simp [hst.1])
  · exact h

theorem bump_keeps (st : StationNo) (f : Unit) (s : State) : KeepsBooks s (bump st f s).1 := by
  unfold bump
  split
  · exact .refl s
  rename_i t _
  have h : SameBooks s (s.modifyStation st (Station.bumpTicket t)) := ⟨rfl, rfl, rfl, rfl⟩
  refine KeepsBooks.answer (h.keeps.trans ?_)
  split
  · exact serveTab_keeps _ t _
  · exact .refl _

theorem resume_keeps (st : StationNo) (f : Unit) (s : State) : KeepsBooks s (resume st f s).1 := by
  unfold resume
  split
  · exact SameBooks.keeps ⟨rfl, rfl, rfl, rfl⟩
  · exact .refl s

theorem unserveTab_keeps (i : Slot) (t : Ticket) (s : State) : KeepsBooks s (unserveTab i t s) :=
  (Quiet.touch (quiet_modifyTab (Tab.alike_changeLines _ _ _ (fun _ => unserveLine_entered) unserveLine_held))).keeps

theorem recallTicket_keeps (st : StationNo) (n : Nat) (s : State) : KeepsBooks s (recallTicket st n s).1 := by
  unfold recallTicket
  split
  · exact .refl s
  split
  · exact .refl s
  rename_i t _
  split
  · exact .refl s
  split
  · exact .refl s
  have h : SameBooks s (s.modifyStation st (Station.recallTicket t)) := ⟨rfl, rfl, rfl, rfl⟩
  refine KeepsBooks.answer (h.keeps.trans ?_)
  split
  · exact unserveTab_keeps _ t _
  · exact .refl _

theorem modifyStation_rail_same (st : StationNo) (f : Station → Station) (s : State) :
    SameBooks s (recomputeRail st (s.modifyStation st f)) :=
  SameBooks.trans (t := s.modifyStation st f) ⟨rfl, rfl, rfl, rfl⟩ (same_recomputeRail st _)

theorem holdLow_keeps (st : StationNo) (code : Nat) (s : State) : KeepsBooks s (holdLow st code s).1 := by
  unfold holdLow
  split
  · exact .refl s
  · exact KeepsBooks.answer (modifyStation_rail_same st _ s).keeps

theorem setWorking_keeps (asked : StationState) (st : StationNo) (s : State) : KeepsBooks s (setWorking asked st s).1 := by
  unfold setWorking
  split
  · exact .refl s
  split
  · exact .refl s
  · exact KeepsBooks.answer (modifyStation_rail_same st _ s).keeps

theorem pauseOrOpen_keeps (asked : StationState) (p : Port) (f : Option Nat) (s : State) :
    KeepsBooks s (pauseOrOpen asked p f s).1 := by
  unfold pauseOrOpen
  split
  · split
    · exact setWorking_keeps asked _ s
    · exact .refl s
  · split
    · exact setWorking_keeps asked _ s
    · exact .refl s

theorem stationView_keeps (st : StationNo) (start : Nat) (s : State) : KeepsBooks s (stationView st start s).1 := by
  unfold stationView
  split <;> exact .refl s

theorem reconfigure_keeps (st : StationNo) (state : StationState) (a : Option StationNo) (threshold : Nat) (status : Status)
    (s : State) : KeepsBooks s (reconfigure st state a threshold status s).1 :=
  KeepsBooks.answer (modifyStation_rail_same st _ s).keeps

theorem closeStation_keeps (st : StationNo) (a : Option StationNo) (threshold : Nat) (status : Status) (s : State) :
    KeepsBooks s (closeStation st a threshold status s).1 := by
  unfold closeStation
  dsimp only
  split
  · exact .refl s
  split
  · exact reconfigure_keeps st _ a threshold status s
  split
  · exact .refl s
  rename_i b
  split
  · exact .refl s
  split
  · exact .refl s
  · have h : SameBooks s (moveQueue st b (configure st .closed (some b) threshold s)) := ⟨rfl, rfl, rfl, rfl⟩
    exact KeepsBooks.answer (h.trans (same_recomputeRails [st, b] _)).keeps

theorem setStation_keeps (f : SetStationFields) (s : State) : KeepsBooks s (setStation f s).1 := by
  unfold setStation
  split
  · split
    · exact .refl s
    dsimp only
    split
    · exact closeStation_keeps _ _ _ _ s
    · exact reconfigure_keeps _ _ _ _ _ s
  · exact .refl s

theorem same_expireLate (n : Nat) (s : State) : SameBooks s (expireLate n s) := by
  unfold expireLate
  split
  · exact ⟨rfl, rfl, rfl, rfl⟩
  split
  · exact ⟨rfl, rfl, rfl, rfl⟩
  · exact ⟨rfl, rfl, rfl, rfl⟩

/-! ### Ports, clock and power (R167 to R186) -/

/-- A lane's ownership given up (R152, R163). -/
theorem disown_keeps (l : Lane) (s : State) (i : Slot) : KeepsBooks s (disown l s i) := by
  unfold disown
  split
  · rename_i ho
    split
    · rename_i hsp
      refine .of_items (loseOwner_items i s) fun hs => ?_
      exact hs.loseOwner (hs.2.2.2.2.2.2 i (by simp [ho])) (hs.2.notInHand_of_complete hsp)
    · refine KeepsBooks.touch (quiet_modifyTab ?_).keeps
      exact Tab.SameLife.alike ⟨rfl, rfl, fun _ => .of_lines rfl, fun _ h => ⟨rfl, h⟩, fun h => absurd rfl h⟩ rfl
  · exact .refl s

theorem disownAll_keeps (l : Lane) (is : List Slot) (s : State) : KeepsBooks s (is.foldl (disown l) s) := by
  induction is generalizing s with
  | nil => exact .refl s
  | cons i is ih => exact (disown_keeps l s i).trans (ih _)

theorem quiet_leaveTabs (l : Lane) (s : State) : Quiet s (leaveTabs l s) :=
  quiet_tabs _ rfl (fun _ => Tab.SameHead.alike ⟨rfl, rfl, rfl, rfl, rfl⟩ rfl) rfl rfl rfl

theorem resetPort_keeps (l : Lane) (s : State) : KeepsBooks s (resetPort l s) := by
  have hu : SameBooks s (unbind l s) := ⟨rfl, rfl, rfl, rfl⟩
  have h := (hu.quiet.trans (quiet_leaveTabs l _)).keeps.trans (disownAll_keeps l (List.finRange 128) _)
  unfold resetPort
  dsimp only
  generalize (List.finRange 128).foldl (disown l) (leaveTabs l (unbind l s)) = t at h ⊢
  split
  · have hr := same_returnToken t
    exact h.same (hr.trans ⟨rfl, rfl, rfl, rfl⟩)
  · exact h.same ⟨rfl, rfl, rfl, rfl⟩

theorem same_bindStation (l : Lane) (st : StationNo) (s : State) : SameBooks s (bindStation l st s) := by
  refine SameBooks.trans (t := (s.modifyStation st _).setPort l _) ?_ (same_recomputeRail st _)
  exact ⟨rfl, rfl, rfl, rfl⟩

theorem same_applyFlags (l : Lane) (f : SetPortFields) (r : Role) (s : State) : SameBooks s (applyFlags l f r s) :=
  ⟨rfl, rfl, rfl, rfl⟩

theorem changeStanding_keeps (l : Lane) (f : SetPortFields) (r : Role) (st : Option StationNo) (s : State) :
    KeepsBooks s (changeStanding l f r st s).2 := by
  have h := resetPort_keeps l s
  unfold changeStanding
  generalize resetPort l s = t at h ⊢
  have hf := same_applyFlags l f r t
  dsimp only
  split
  · exact h.trans hf.keeps
  split
  · exact h
  · exact h.trans (hf.trans (same_bindStation l _ _)).keeps

theorem keepStanding_keeps (l : Lane) (f : SetPortFields) (r : Role) (s : State) : KeepsBooks s (keepStanding l f r s) := by
  have hf := same_applyFlags l f r s
  unfold keepStanding
  dsimp only
  split
  · exact (hf.trans ((same_returnToken _).trans (same_raiseLanes _ [l] _))).keeps
  · exact hf.keeps

theorem setPortRequest_keeps (f : SetPortFields) (s : State) : KeepsBooks s (setPortRequest f s).1 := by
  unfold setPortRequest
  split
  · split
    · exact KeepsBooks.answer (changeStanding_keeps _ f _ _ s)
    · exact KeepsBooks.answer (keepStanding_keeps _ f _ s)
  · exact .refl s

theorem events_keeps (p : Port) (f : Unit) (s : State) : KeepsBooks s (events p f s).1 := by
  cases p <;> exact SameBooks.keeps ⟨rfl, rfl, rfl, rfl⟩

theorem setMask_keeps (p : Port) (mask : Nat) (s : State) : KeepsBooks s (setMask p mask s).1 := by
  cases p <;> exact SameBooks.keeps ⟨rfl, rfl, rfl, rfl⟩

theorem setClock_keeps (value : Nat) (s : State) : KeepsBooks s (setClock value s).1 := SameBooks.keeps ⟨rfl, rfl, rfl, rfl⟩

theorem status_keeps (f : Unit) (s : State) : KeepsBooks s (status f s).1 := .refl s

theorem State.reset_item (m : ItemNo) : State.reset.item m = Item.blank := replicate_get _ m

theorem State.reset_tab (i : Slot) : State.reset.tab i = Tab.blank := replicate_get _ i

theorem catalogueHolds_reset : CatalogueHolds State.reset := fun m => by rw [State.reset_item]; rfl

theorem reservedHolds_reset : ReservedHolds State.reset := fun m => by
  simp only [State.reset_item, State.reset_tab, Tab.noneEntered_blank.entered]
  simp [Item.blank]

theorem tabsHold_reset : TabsHold State.reset := by
  refine ⟨fun i _ => ?_, List.nodup_nil, fun _ h => (by cases h), List.nodup_nil, fun _ h => (by cases h), fun i h => ?_⟩
  · rw [State.reset_tab]; exact Tab.noneEntered_blank
  · rw [State.reset_tab] at h; exact absurd rfl h

/-- A device reset leaves the books of the reset state, whatever stood in them (R186). -/
theorem keeps_reset {s t : State} (h : SameBooks State.reset t) : KeepsBooks s t :=
  ⟨fun _ => h.keeps.catalogue catalogueHolds_reset, fun _ => h.keeps.books ⟨reservedHolds_reset, tabsHold_reset⟩⟩

theorem quiet_tick (s : State) : Quiet s (tick s) :=
  quiet_tabs _ rfl (fun _ => Tab.SameLife.alike
    ⟨rfl, rfl, fun _ => .of_lines rfl, fun hc hs => ⟨congrArg countDown hc, hs⟩, .inl⟩ rfl) rfl rfl rfl

end Sys2Proof.Machine
end

section
/-! SUPPORT. What every command leaves of the books, and the invariants of R2. -/

namespace Sys2Proof.Machine

/-- An outcome after which both halves of R2 stand. -/
def Keeps (s : State) (o : Host.Outcome State Fault Refusal) : Prop := ∀ t, o = .next t → KeepsBooks s t

theorem keeps_next {s t : State} (h : KeepsBooks s t) : Keeps s (.next t) := fun _ e => by
  cases e
  exact h

theorem receive_keeps {α : Type} {k : Kind} {p : Port} {n tag : Nat} {body : Body α} {fresh : α → State → Option Lane}
    {block : α → State → Answer} {s : State} (h : ∀ f u, KeepsBooks u (block f u).1) :
    Keeps s (.next (receive p n s (handle k p tag body fresh block))) := by
  refine keeps_next ?_
  rcases receive_handle_cases k p n tag body fresh block s with hs | ⟨f, u, hu, hb⟩
  · exact (same_samePart hs).keeps
  · exact ((same_samePart hu).keeps.trans (h f u)).same (same_samePart hb)

theorem serve_keeps {α : Type} {k : Kind} {c : Codec α} {p : Port} {tag : Nat} {body : Body α} {block : α → State → Answer}
    {s : State} (h : ∀ f u, KeepsBooks u (block f u).1) : Keeps s (serve k c p tag body block s) := receive_keeps h

theorem serveLane_keeps {α : Type} {k : Kind} {c : Codec α} {p : Port} {tag : Nat} {body : Body α}
    {block : Lane → α → State → Answer} {s : State} (h : ∀ l f u, KeepsBooks u (block l f u).1) :
    Keeps s (serveLane k c p tag body block s) :=
  serve_keeps fun f u => by
    split
    · exact h _ f u
    · exact .refl u

theorem serveStation_keeps {α : Type} {k : Kind} {c : Codec α} {p : Port} {tag : Nat} {body : Body α}
    {block : StationNo → α → State → Answer} {s : State} (h : ∀ st f u, KeepsBooks u (block st f u).1) :
    Keeps s (serveStation k c p tag body block s) :=
  serveLane_keeps fun l f u => by
    split
    · exact h _ f u
    · exact .refl u

theorem happen_keeps {effect : State → State} {s : State} (h : KeepsBooks s (effect s)) : Keeps s (happen effect s) := by
  intro t ht
  obtain ⟨t', ht', hc⟩ := happen_cases effect s
  cases ht.symm.trans ht'
  rcases hc with hc | hc
  · exact (same_samePart hc).keeps
  · exact h.same (same_samePart hc)

/-- A step that the RESET pin holds back keeps the books where its effect does. -/
theorem unheld_keeps {s t : State} (h : KeepsBooks s t) : Keeps s (.next (if s.resetPin then s else t)) := by
  refine keeps_next ?_
  split
  · exact .refl s
  · exact h

/-! ### The receivers' and transmitters' steps (R167, R173 to R176) -/

theorem same_clockFrame (p : Port) (n : Nat) (s : State) : SameBooks s (clockFrame p n s) := same_samePart (samePart_clockFrame p n s)

theorem same_dropFrame (p : Port) (s : State) : SameBooks s (dropFrame p s) := same_samePart (samePart_dropFrame p s)

theorem same_clockReply (n : Nat) (s : State) : SameBooks s (clockReply n s) := by
  unfold clockReply
  split
  · exact ⟨rfl, rfl, rfl, rfl⟩
  split <;> exact ⟨rfl, rfl, rfl, rfl⟩

theorem dropWhen_keeps (occurs : State → Bool) (p : Port) (n : Nat) (s : State) : Keeps s (dropWhen occurs p n s) := by
  refine unheld_keeps ?_
  split
  · exact ((same_clockFrame p n s).trans (same_dropFrame p _)).keeps
  · exact .refl s

theorem beginFrame_keeps (b : StartByte) (s : State) : KeepsBooks s (beginFrame b s) := by
  unfold beginFrame
  split
  · refine ((same_clockFrame (startPort b) (startTransfers b) s).trans ?_).keeps
    cases startPort b <;> exact ⟨rfl, rfl, rfl, rfl⟩
  · exact .refl s

theorem drawn_keeps (n : Nat) (s : State) :
    KeepsBooks s (dropFrame .office (clockReply n { s with draws := s.draws + 1 })) := by
  have h : SameBooks s { s with draws := s.draws + 1 } := ⟨rfl, rfl, rfl, rfl⟩
  exact (h.trans ((same_clockReply n _).trans (same_dropFrame .office _))).keeps

theorem discardFrame_keeps (s : State) : KeepsBooks s (discardFrame s) := by
  unfold discardFrame
  split
  · exact .refl s
  · exact drawn_keeps _ s

theorem overrun_keeps (s : State) : KeepsBooks s (overrun s) := by
  unfold overrun
  split
  · exact .refl s
  · exact drawn_keeps _ s

theorem execUnknownKind_keeps (p : Port) (tag : Nat) (k : KindAndBody) (s : State) : Keeps s (execUnknownKind p tag k s) := by
  refine keeps_next ?_
  split
  · unfold receive
    split
    · exact .refl s
    · dsimp only
      have hc := same_clockFrame p (frameSize (2 + k.body.length)) s
      split
      · exact (hc.trans (same_dropFrame p _)).keeps
      · exact (hc.trans ((same_samePart (samePart_huntAgain p _)).trans (same_samePart (samePart_sendReply p _ _ _ _)))).keeps
  · exact .refl s

/-! ### Every command -/

/-- No command breaks the books of the catalogue (R2). -/
theorem exec_keeps (c : Instr) (s : State) : Keeps s (exec c s) := by
  cases c with
  | powerOn => exact keeps_next (keeps_reset ⟨rfl, rfl, rfl, rfl⟩)
  | resetPin => exact keeps_next (keeps_reset ⟨rfl, rfl, rfl, rfl⟩)
  | reset p tag body => exact serve_keeps fun _ _ => keeps_reset ⟨rfl, rfl, rfl, rfl⟩
  | secondTick => exact unheld_keeps (quiet_tick s).keeps
  | lateExpiry n => exact happen_keeps (same_expireLate n s).keeps
  | claimLapse n => exact happen_keeps (lapseClaim_keeps n s)
  | frameTimeout l => exact dropWhen_keeps _ _ _ s
  | lengthError p n => exact dropWhen_keeps (fun _ => !lengthOk n) p 2 s
  | crcMismatch p bytes crc => exact dropWhen_keeps (fun _ => countedBytes bytes && crc16 bytes ≠ crc) p _ s
  | csDeasserted => exact unheld_keeps (discardFrame_keeps s)
  | badTagOrKind p tag k => exact dropWhen_keeps (fun _ => tag = 0 || 0x80 ≤ k.kind) p _ s
  | unknownKind p tag k => exact execUnknownKind_keeps p tag k s
  | transmitListFull l => exact dropWhen_keeps _ _ _ s
  | officeRequestOverrun => exact unheld_keeps (overrun_keeps s)
  | frameSent l => exact unheld_keeps (SameBooks.keeps ⟨rfl, rfl, rfl, rfl⟩)
  | replyClockedOut => exact unheld_keeps (SameBooks.keeps ⟨rfl, rfl, rfl, rfl⟩)
  | openTab p tag body => exact serveLane_keeps openTab_keeps
  | tabView p tag body => exact serve_keeps (tabView_keeps p)
  | addLine p tag body => exact serveLane_keeps addLine_keeps
  | voidLine p tag body => exact serveLane_keeps voidLine_keeps
  | compLine p tag body => exact serveLane_keeps compLine_keeps
  | overridePrice p tag body => exact serveLane_keeps overridePrice_keeps
  | follow p tag body => exact serveLane_keeps follow_keeps
  | unfollow p tag body => exact serveLane_keeps unfollow_keeps
  | setService p tag body => exact serve_keeps (setService_keeps p)
  | unlock p tag body => exact serveLane_keeps unlock_keeps
  | lock p tag body => exact serveLane_keeps lock_keeps
  | setPin p tag body => exact serveLane_keeps setPin_keeps
  | clearLockout p tag body => exact serveLane_keeps clearLockout_keeps
  | fire p tag body => exact serveLane_keeps fire_keeps
  | rail p tag body => exact serveStation_keeps rail_keeps
  | take p tag body => exact serveStation_keeps take_keeps
  | bump p tag body => exact serveStation_keeps bump_keeps
  | resume p tag body => exact serveStation_keeps resume_keeps
  | recallTicket p tag body => exact serveStation_keeps recallTicket_keeps
  | holdLow p tag body => exact serveStation_keeps holdLow_keeps
  | pause p tag body => exact serve_keeps (pauseOrOpen_keeps .paused p)
  | openStation p tag body => exact serve_keeps (pauseOrOpen_keeps .opened p)
  | stationView p tag body => exact serveStation_keeps stationView_keeps
  | setStation p tag body => exact serve_keeps setStation_keeps
  | passSupervisor p tag body => exact serve_keeps (passSupervisor_keeps p)
  | reclaim p tag body => exact serve_keeps reclaim_keeps
  | approvalList p tag body => exact serve_keeps (approvalList_keeps p)
  | approve p tag body => exact serve_keeps (approve_keeps p)
  | deny p tag body => exact serve_keeps (deny_keeps p)
  | withdraw p tag body => exact serveLane_keeps withdraw_keeps
  | results p tag body => exact serveLane_keeps results_keeps
  | split p tag body => exact serveLane_keeps (split_keeps tag)
  | splitBegin => exact happen_keeps (same_takeUp s).keeps
  | splitCompletion => exact happen_keeps (complete_keeps s)
  | shareView p tag body => exact serve_keeps (shareView_keeps p)
  | tender p tag body => exact serveLane_keeps tender_keeps
  | undoTender p tag body => exact serveLane_keeps undoTender_keeps
  | dropSplit p tag body => exact serveLane_keeps dropSplit_keeps
  | adopt p tag body => exact serveLane_keeps adopt_keeps
  | takeClosed p tag body => exact serve_keeps takeClosed_keeps
  | loadItem p tag body => exact serve_keeps loadItem_keeps
  | withdrawItem p tag body => exact serve_keeps withdrawItem_keeps
  | loadModifier p tag body => exact serve_keeps loadModifier_keeps
  | setTaxRate p tag body => exact serve_keeps setTaxRate_keeps
  | setGroupPriority p tag body => exact serve_keeps setGroupPriority_keeps
  | setCount p tag body => exact serve_keeps (setCount_keeps p)
  | availability p tag body => exact serve_keeps availability_keeps
  | setPort p tag body => exact receive_keeps setPortRequest_keeps
  | events p tag body => exact serve_keeps (events_keeps p)
  | setMask p tag body => exact serve_keeps (setMask_keeps p)
  | setClock p tag body => exact serve_keeps setClock_keeps
  | status p tag body => exact serve_keeps status_keeps
  | startByteReceived b => exact unheld_keeps (beginFrame_keeps b s)
  | resetPinAsserted => exact keeps_next (keeps_reset ⟨rfl, rfl, rfl, rfl⟩)

/-- Settles O55: each command keeps both halves of R2, by the rules of its block. -/
theorem catalogueRelationIsKept : Obligations.CatalogueRelationIsKept :=
  ⟨kept_of_exec (fun _ _ => id) fun c s t hs ht => (exec_keeps c s t ht).catalogue hs,
    kept_of_exec (fun _ _ => id) fun c s t hs ht => (exec_keeps c s t ht).books hs⟩

end Sys2Proof.Machine
end

section
/-! SUPPORT. The state after a device reset (R186). -/

namespace Sys2Proof.Machine

/-! ### The state after a device reset -/

theorem State.reset_port (l : Lane) : State.reset.port l = PortEntry.blank := replicate_get _ l

theorem State.reset_station (i : StationNo) : State.reset.station i = Station.blank := replicate_get _ i

theorem State.reset_resultsOf (l : Lane) : State.reset.resultsOf l = [] := replicate_get _ l

theorem portTableHolds_reset : PortTableHolds State.reset := by
  refine ⟨nofun, fun l => ?_, fun l => ?_, fun l st => ?_⟩
  · rw [State.reset_port]; nofun
  · rw [State.reset_port]; nofun
  · rw [State.reset_port, State.reset_station]; exact ⟨nofun, nofun⟩

theorem listsHold_reset : ListsHold State.reset := by
  refine ⟨fun st => ?_, fun i => ?_, Nat.zero_le _, List.nodup_nil, fun l => ?_, Nat.zero_le _⟩
  · rw [State.reset_station]
    exact ⟨Nat.zero_le _, Nat.zero_le _, Nat.zero_le _⟩
  · rw [State.reset_tab]
    exact ⟨Nat.zero_le _, Nat.zero_le _⟩
  · rw [State.reset_resultsOf]
    exact Nat.zero_le _

/-- Settles O59: every block of the reset state is a table of one blank record, which has each invariant. -/
theorem invariantsHoldAtReset : Obligations.InvariantsHoldAtReset := by
  refine ⟨fun i => ?_, catalogueHolds_reset, portTableHolds_reset, fun l => ?_, fun j => ?_, listsHold_reset, reservedHolds_reset,
    tabsHold_reset⟩
  · rw [State.reset_tab]; rfl
  · rw [State.reset_port]; rfl
  · have h : State.reset.shares.get j = .free := replicate_get _ j
    rw [h]
    trivial

end Sys2Proof.Machine
end

section
/-! SUPPORT. The answer of a request whose block has answered: `State.answered`, read off the block's own state and reply (R167,
R176, R177, R180). -/

namespace Sys2Proof.Machine

/-! ### A port that hunts again, under updates of other blocks -/

@[simp] theorem setTab_huntAgain (p : Port) (s : State) (i : Slot) (t : Tab) :
    (huntAgain p s).setTab i t = huntAgain p (s.setTab i t) := by cases p <;> rfl

@[simp] theorem setItem_huntAgain (p : Port) (s : State) (m : ItemNo) (it : Item) :
    (huntAgain p s).setItem m it = huntAgain p (s.setItem m it) := by cases p <;> rfl

@[simp] theorem setStation_huntAgain (p : Port) (s : State) (st : StationNo) (x : Station) :
    (huntAgain p s).setStation st x = huntAgain p (s.setStation st x) := by cases p <;> rfl

theorem toTills_congr {k : EventKind} {s t : State} (h : ∀ l, (t.port l).role = (s.port l).role) : toTills k t = toTills k s := by
  funext p
  cases p with
  | office => rfl
  | lane l => simp only [toTills, h]

@[simp] theorem toTills_huntAgain (k : EventKind) (p : Port) (s : State) : toTills k (huntAgain p s) = toTills k s :=
  toTills_congr fun l => huntAgain_role s p l

theorem huntAgain_ports_congr {s t : State} (p : Port) (h : t.ports = s.ports) : (huntAgain p t).ports = (huntAgain p s).ports := by
  cases p with
  | office => exact h
  | lane l => simp only [huntAgain, State.setReceiver, State.setPort, State.port, h]

theorem huntAgain_receiver_congr {s t : State} (p : Port) (h : t.officeReceiver = s.officeReceiver) :
    (huntAgain p t).officeReceiver = (huntAgain p s).officeReceiver := by
  cases p with
  | office => rfl
  | lane l => exact h

theorem both_comm (a b : Raised) : both a b = both b a := funext fun p => BitVec.or_comm (a p) (b p)

theorem both_assoc (a b c : Raised) : both (both a b) c = both a (both b c) := funext fun p => BitVec.or_assoc (a p) (b p) (c p)

theorem both_nobody (a : Raised) : both a nobody = a := funext fun p => by simp [both, nobody]

/-! ### A request answered by its block -/

/-- A port whose request frame is taken and not answered BUSY. -/
def Taken (p : Port) (tag : Nat) (s : State) : Prop :=
  s.resetPin = false ∧ tag ≠ 0 ∧ overdue p s = false ∧ congested p s = false ∧ awaitsReply p s = false

theorem taken_of_any {p : Port} {tag : Nat} {s : State} (h : anyReady p tag s = true) : Taken p tag s := by
  cases p with
  | office => exact officeReady_spec h
  | lane l =>
    simp only [anyReady, Bool.and_eq_true] at h
    exact laneReady_spec h.1

/-- A port with a role that is not OFF may send what every port may. -/
theorem mayRequest_of_any {p : Port} {tag : Nat} {s : State} {k : Kind} (h : anyReady p tag s = true)
    (hk : senders k = senderEveryone) : mayRequest p k s = true := by
  cases p with
  | office => simp [mayRequest, hk, senderEveryone]
  | lane l =>
    simp only [anyReady, Bool.and_eq_true, decide_eq_true_eq] at h
    cases hr : (s.port l).role with
    | off => exact absurd hr h.2
    | till => simp [mayRequest, hr, hk, senderEveryone]
    | station => simp [mayRequest, hr, hk, senderEveryone]

/-- What a request answers whose block answers: the block's reply is sent, its events raised, and the port hunts (R167, R180). `t` is
the state the block leaves, but for the port's receiver. -/
theorem serve_answered {α : Type} {k : Kind} {c : Codec α} {p : Port} {tag : Nat} {fields : α} {block : α → State → Answer}
    {s t : State} {status : Status} {body : List Field} {r : Raised} (ht : Taken p tag s) (hm : mayRequest p k s = true)
    (hb : block fields (huntAgain p s) = answer ((huntAgain p t).raised r) status body) (hp : t.ports = s.ports)
    (ho : t.officeReceiver = s.officeReceiver) :
    serve k c p tag (.fields fields) block s = .next (t.answered p tag (kindCode k) status body r) := by
  obtain ⟨hr, htag, hov, hco, haw⟩ := ht
  rw [serve_taken block hr hov hco htag haw hm, hb,
    conclude_answer p tag k s _ status body r (huntAgain_ports_congr p hp) (huntAgain_receiver_congr p ho), answered_huntAgain]

/-- A request that its block refuses or only reads. -/
theorem serve_unchanged {α : Type} {k : Kind} {c : Codec α} {p : Port} {tag : Nat} {fields : α} {block : α → State → Answer}
    {s t : State} {status : Status} {body : List Field} (ht : Taken p tag s) (hm : mayRequest p k s = true)
    (hb : block fields (huntAgain p s) = answer (huntAgain p t) status body) (hp : t.ports = s.ports)
    (ho : t.officeReceiver = s.officeReceiver) :
    serve k c p tag (.fields fields) block s = .next (t.answered p tag (kindCode k) status body nobody) :=
  serve_answered ht hm (by rw [raised_nobody]; exact hb) hp ho

/-- A request that the code table or the port's role does not allow is answered UNSUPPORTED (R177). -/
theorem serve_unsupported {α : Type} {k : Kind} {c : Codec α} {p : Port} {tag : Nat} {fields : α} (block : α → State → Answer)
    {s : State} (ht : Taken p tag s) (hm : mayRequest p k s = false) :
    serve k c p tag (.fields fields) block s = .next (s.answered p tag (kindCode k) .unsupported [] nobody) := by
  obtain ⟨hr, htag, hov, hco, haw⟩ := ht
  have hsent (l : Lane) : ((huntAgain p s).port l).pendingSet
      = ((sendReply p tag (kindCode k) ⟨.unsupported, []⟩ (huntAgain p s)).port l).pendingSet := by
    cases p with
    | office => rfl
    | lane j =>
      refine Eq.symm ((congrArg PortEntry.pendingSet (State.setPort_port _ j l _)).trans ?_)
      split
      · subst_vars; rfl
      · rfl
  have hc := conclude_answer p tag k s (huntAgain p s) .unsupported [] nobody rfl rfl
  rw [raised_nobody, answered_huntAgain] at hc
  rw [← hc, conclude, deliver, answer, composeNotices_unchanged _ _ hsent]
  simp [serve, receive_taken _ hr hov hco, handle, htag, haw, hm]

/-- The state in which a tab's request meets its checks: the claim restarted (R161) and the port hunting. -/
def State.naming (l : Lane) (i : Slot) (s : State) : State := huntAgain (.lane l) (s.setTab i ((s.tab i).named (.lane l)))

/-- A request of a till that names a tab (R24, R161): what its continuation answers on the tab with its claim restarted. -/
theorem serve_tab {α : Type} {k : Kind} {c : Codec α} {l : Lane} {tag : Nat} {fields : α} {n : Nat} {i : Slot} {missing : List Field}
    {body' : Lane → α → State → Answer} {cont : Slot → State → Answer} {s t : State} {status : Status} {body : List Field}
    {r : Raised} (h : tillReady l tag s = true) (hk : (senders k).till = true) (hi : s.findTab n = some i)
    (hw : ∀ u, body' l fields u = withTab (.lane l) n u cont missing)
    (hb : cont i (s.naming l i) = answer ((huntAgain (.lane l) t).raised r) status body)
    (hp : t.ports = s.ports) (ho : t.officeReceiver = s.officeReceiver) :
    serveLane k c (.lane l) tag (.fields fields) body' s = .next (t.answered (.lane l) tag (kindCode k) status body r) := by
  simp only [tillReady, Bool.and_eq_true, decide_eq_true_eq] at h
  refine serve_answered (laneReady_spec h.1) (by simp [mayRequest, h.2, hk]) ?_ hp ho
  rw [← hb]
  simp only [hw, withTab_eq, huntAgain_findTab, hi, huntAgain_tab, setTab_huntAgain, State.naming]

end Sys2Proof.Machine
end

section
/-! SUPPORT. Requests that replace one item record: LOAD_ITEM (R6, R7) and what raises AVAILABILITY_CHANGED (R16). -/

namespace Sys2Proof.Machine

/-! ### Out items and what raises AVAILABILITY_CHANGED (R2, R16) -/

/-- Nothing of a LIMITED item is available (R2). -/
def Item.Exhausted (it : Item) : Prop := it.mode = .limited ∧ it.count ≤ it.reserved

theorem Item.out_iff (it : Item) : it.out = true ↔ it.state = .listed ∧ it.Exhausted := by
  unfold Item.out Item.available Item.Exhausted
  cases it.mode <;> simp [Nat.sub_eq_zero_iff_le]

/-- An item that a change leaves LISTED raises the event where it was not LISTED before or comes to be out or ceases to (R16). -/
theorem availabilityChanged_listed {before after : Item} (h : after.state = .listed) :
    availabilityChanged before after = true ↔ before.state ≠ .listed ∨ ¬(before.Exhausted ↔ after.Exhausted) := by
  by_cases hl : before.state = .listed
  · have he : before.out = after.out ↔ (before.Exhausted ↔ after.Exhausted) := by
      rw [Bool.eq_iff_iff, Item.out_iff, Item.out_iff]
      simp [hl, h]
    have hc : availabilityChanged before after = decide (before.out ≠ after.out) := by simp [availabilityChanged, h, hl]
    rw [hc, decide_eq_true_iff]
    exact (not_congr he).trans (or_iff_right (not_not.mpr hl)).symm
  · simp [availabilityChanged, h, hl]

/-- A change that keeps an item's state raises the event where the item is LISTED and comes to be out or ceases to (R16). -/
theorem availabilityChanged_same {before after : Item} (h : after.state = before.state) :
    availabilityChanged before after = true ↔ before.state = .listed ∧ ¬(before.Exhausted ↔ after.Exhausted) := by
  by_cases hl : before.state = .listed
  · rw [availabilityChanged_listed (h.trans hl)]
    simp [hl]
  · cases hs : before.state <;> simp_all [availabilityChanged]

/-- A request whose block replaces one item record: AVAILABILITY_CHANGED goes out where R16 says so. -/
theorem serve_updateItem {α : Type} {k : Kind} {c : Codec α} {p : Port} {tag : Nat} {fields : α} {block : α → State → Answer}
    {s : State} {i : ItemNo} {it : Item} {status : Status} {body : List Field} {P : Prop} [Decidable P] (ht : Taken p tag s)
    (hm : mayRequest p k s = true)
    (hb : block fields (huntAgain p s) = answer (updateItem i it (huntAgain p s)) status body)
    (hP : availabilityChanged (s.item i) it = true ↔ P) :
    serve k c p tag (.fields fields) block s
      = .next ((s.setItem i it).answered p tag (kindCode k) status body
        (if P then toTills .availabilityChanged s else nobody)) := by
  refine serve_answered ht hm ?_ rfl rfl
  rw [hb, updateItem_eq, setItem_huntAgain, huntAgain_item, toTills_huntAgain, if_congr hP rfl rfl]

theorem fin?_val {n : Nat} (i : Fin n) : fin? n i.val = some i := by simp [fin?]

theorem fin?_none {n k : Nat} (h : n ≤ k) : fin? n k = none := by
  unfold fin?
  rw [dif_neg (Nat.not_lt.mpr h)]

theorem mayRequest_office {k : Kind} (h : (senders k).office = true) (s : State) : mayRequest .office k s = true := h

/-! ### LOAD_ITEM (R6, R7) -/

/-- The record LOAD_ITEM leaves (R6, R7). -/
def loadedItem (old : Item) (f : LoadItemFields) (c : TaxClass) (st : StationNo) (g : GroupNo) (m : CountMode) : Item :=
  { state := .listed, price := f.price, taxClass := c, station := st, group := g, mode := m, count := loadedCount old m f.count
    reserved := old.reserved }

theorem loadItem_eq {f : LoadItemFields} {i : ItemNo} {c : TaxClass} {st : StationNo} {g : GroupNo} {m : CountMode} (s : State)
    (hi : f.item = i.val) (hprice : f.price ≤ 99999) (hc : f.taxClass = c.val) (hst : f.station = st.val) (hg : f.group = g.val)
    (hm : countModeOfCode f.mode = some m) :
    loadItem f s = answer (updateItem i (loadedItem (s.item i) f c st g m) s)
      (if loadClamps (s.item i) m f.count then .clamped else .ok) (itemFigures (loadedItem (s.item i) f c st g m)) := by
  simp only [loadItem, hi, hc, hst, hg, hm, fin?_val, if_neg (Nat.not_lt.mpr hprice : ¬Config.maxPrice < f.price)]
  rfl

theorem loadClamps_limited (it : Item) (n : Nat) : loadClamps it .limited n = true ↔ it.clampCount n ≠ n := decide_eq_true_iff

/-- Settles O17, for a LIMITED and for an UNLIMITED mode: the block's record is the one stated, and R16 speaks of the two
records' exhaustion. -/
theorem loadItemReplacesRecord : Obligations.LoadItemReplacesRecord := by
  intro tag f i c st g s hready hi hprice hc hst hg hmode old kept it wasOut isOut
  show serve .loadItem loadItemCodec .office tag (.fields f) loadItem s = _
  obtain ⟨m, hm, hit, hclamp, hout⟩ : ∃ m, countModeOfCode f.mode = some m ∧ loadedItem old f c st g m = it
      ∧ (loadClamps old m f.count = true ↔ f.mode = 0 ∧ kept ≠ f.count) ∧ (it.Exhausted ↔ isOut) := by
    obtain hm | hm : f.mode = 0 ∨ f.mode = 1 := by omega
    · exact ⟨.limited, by rw [hm]; rfl, by simp [it, kept, hm, loadedItem, loadedCount, Item.clampCount, Config.maxCount],
        by rw [loadClamps_limited]; simp [kept, hm, Item.clampCount, Config.maxCount], by simp [Item.Exhausted, it, isOut, hm]⟩
    · exact ⟨.unlimited, by rw [hm]; rfl, by simp [it, kept, hm, loadedItem, loadedCount], by simp [hm, loadClamps],
        by simp [Item.Exhausted, it, isOut, hm]⟩
  refine serve_updateItem (it := it) (officeReady_spec hready) (mayRequest_office rfl s) ?_
    ((availabilityChanged_listed rfl).trans (or_congr_right (not_congr (iff_congr Iff.rfl hout))))
  rw [loadItem_eq (huntAgain .office s) hi hprice hc hst hg hm, huntAgain_item, hit, if_congr hclamp rfl rfl]
  simp only [itemFigures, itemStateCode, Item.available, it]
  split
  · rfl
  · rfl

end Sys2Proof.Machine
end

section
/-! SUPPORT. The catalogue's other requests: SET_COUNT and WITHDRAW_ITEM (R8 to R10), the tables with the rails that a group's
priority moves (R3 to R5, R91), and AVAILABILITY (R18). -/

namespace Sys2Proof.Machine

/-! ### WITHDRAW_ITEM and SET_COUNT (R8 to R10) -/

/-- Who may set a count (R9, step 3). -/
theorem mayCount_iff {p : Port} {it : Item} {s : State} :
    mayCount p it s = true ↔ p = .office ∨ s.token = p
      ∨ ∃ l, p = .lane l ∧ (s.port l).role = .station ∧ (s.port l).bound = some it.station := by
  cases p <;> simp [mayCount]

/-- Settles O18: the two blocks' records are those stated, and R16 speaks of the records' exhaustion. -/
theorem withdrawAndCount : Obligations.WithdrawAndCount := by
  intro tag i s
  refine ⟨fun hready hlisted => ?_, fun p count hready habsent hmay => ?_⟩
  · have h := serve_updateItem (k := .withdrawItem) (c := halfCodec) (block := withdrawItem) (fields := i.val) (i := i)
      (it := { s.item i with state := .withdrawn }) (status := .ok) (body := [Field.code 2]) (P := True)
      (officeReady_spec hready) (mayRequest_office rfl s)
      (by simp only [withdrawItem, fin?_val, huntAgain_item, hlisted]; rfl) (by simp [availabilityChanged, hlisted])
    rw [if_pos trivial] at h
    exact h
  · intro old kept wasOut isOut
    let it : Item := { old with mode := .limited, count := kept }
    have hout : it.Exhausted ↔ isOut := by simp [Item.Exhausted, it, isOut]
    have hmay' : mayCount p (s.item i) (huntAgain p s) = true := by
      rw [mayCount_iff]
      simpa only [huntAgain_token, huntAgain_role, huntAgain_bound] using hmay
    refine serve_updateItem (it := it) (taken_of_any hready)
      (mayRequest_of_any hready rfl) ?_
      ((availabilityChanged_same (before := old) (after := it) rfl).trans (and_congr_right fun _ => not_congr (iff_congr Iff.rfl hout)))
    simp only [setCount, fin?_val, huntAgain_item, if_neg habsent, if_pos hmay']
    rfl

/-! ### The rails after SET_GROUP_PRIORITY (R5, R91) -/

/-- What stands in the rails changes no rail. -/
theorem railOf_congr {s t : State} {i : StationNo} (hp : t.priorities = s.priorities)
    (hst : (t.station i).queue = (s.station i).queue ∧ (t.station i).state = (s.station i).state
      ∧ (t.station i).holdLow = (s.station i).holdLow) : t.railOf i = s.railOf i := by
  obtain ⟨hq, hs, hh⟩ := hst
  have hpr : t.priority = s.priority := funext fun g => by rw [State.priority, State.priority, hp]
  have he : t.eligible i = s.eligible i := by
    unfold State.eligible
    rw [hpr, hs, hh]
  unfold State.railOf State.dispatch
  rw [hpr, hq, he]

/-- The rails of the stations of a list brought up to date. -/
def State.withRails (is : List StationNo) (s : State) : State :=
  { s with stations := tableOf fun st => if st ∈ is then { s.station st with rail := s.railOf st } else s.station st }

/-- The bound ports of the stations of a list whose rail differs from the one last reported (R91). -/
def railPorts (is : List StationNo) (s : State) : List Lane :=
  is.filterMap fun st => if s.railOf st = (s.station st).rail then none else (s.station st).port

theorem withRails_station (is : List StationNo) (s : State) (st : StationNo) :
    (s.withRails is).station st = if st ∈ is then { s.station st with rail := s.railOf st } else s.station st := tableOf_get _ st

theorem withRail_station (i : StationNo) (s : State) (st : StationNo) :
    (s.withRail i).station st = if st = i then { s.station i with rail := s.railOf i } else s.station st :=
  State.setStation_station s i st _

theorem withRail_railOf (i : StationNo) (s : State) (st : StationNo) : (s.withRail i).railOf st = s.railOf st := by
  refine railOf_congr rfl ?_
  rw [withRail_station]
  split
  · subst_vars; exact ⟨rfl, rfl, rfl⟩
  · exact ⟨rfl, rfl, rfl⟩

theorem toLanes_append (k : EventKind) (as bs : List Lane) : toLanes k (as ++ bs) = both (toLanes k as) (toLanes k bs) := by
  funext p
  cases p with
  | office => simp [both, toLanes]
  | lane l => by_cases ha : l ∈ as <;> by_cases hb : l ∈ bs <;> simp [both, toLanes, ha, hb]

theorem railRaised_eq (i : StationNo) (s : State) : railRaised i s = toLanes .railChanged (railPorts [i] s) := by
  unfold railRaised railPorts
  split
  · funext p
    cases p <;> simp [nobody, toLanes, *]
  · cases hp : (s.station i).port <;> simp [*]

theorem railPorts_withRail {i : StationNo} {is : List StationNo} (s : State) (h : i ∉ is) :
    railPorts is (s.withRail i) = railPorts is s :=
  List.filterMap_congr fun st hst => by
    have hne : st ≠ i := fun e => h (e ▸ hst)
    rw [withRail_railOf, withRail_station, if_neg hne]

/-- The bound ports of a list of stations are told one station after another (R91). -/
theorem toLanes_railPorts_cons {i : StationNo} {is : List StationNo} (s : State) (h : i ∉ is) :
    toLanes .railChanged (railPorts (i :: is) s)
      = both (railRaised i s) (toLanes .railChanged (railPorts is (s.withRail i))) := by
  have hcons : railPorts (i :: is) s = railPorts [i] s ++ railPorts is s := List.filterMap_append (l := [i])
  rw [railRaised_eq, railPorts_withRail s h, ← toLanes_append, hcons]

/-- The rails of several stations recomputed: each brought up to date, and its bound port told where it differs (R91). -/
theorem recomputeRails_eq {is : List StationNo} (h : is.Nodup) (s : State) :
    recomputeRails is s = (s.withRails is).raised (toLanes .railChanged (railPorts is s)) := by
  induction is generalizing s with
  | nil =>
    have hs : s.withRails [] = s := by
      have : (tableOf fun st => s.station st) = s.stations := table_ext fun st => tableOf_get _ st
      simp [State.withRails, this]
    rw [hs]
    exact (raised_nobody s).symm
  | cons i is ih =>
    obtain ⟨hi, hnd⟩ := List.nodup_cons.mp h
    have hrails : (s.withRail i).withRails is = s.withRails (i :: is) := by
      refine congrArg (fun x => { s with stations := x }) (table_ext fun st => ?_)
      rw [tableOf_get, tableOf_get, withRail_railOf, withRail_station]
      by_cases hst : st = i
      · subst hst; simp [hi]
      · simp [hst]
    have hports : railPorts is ((s.withRail i).raised (railRaised i s)) = railPorts is (s.withRail i) := rfl
    have hstate : ((s.withRail i).raised (railRaised i s)).withRails is = ((s.withRail i).withRails is).raised (railRaised i s) := rfl
    show recomputeRails is (recomputeRail i s) = _
    rw [recomputeRail_eq, ih hnd, hports, hstate, hrails, raised_raised, ← toLanes_railPorts_cons s hi]

theorem allStations_nodup : allStations.Nodup := List.nodup_finRange 8

/-- Settles O19, one clause after another. -/
theorem catalogueTablesAreReplaced : Obligations.CatalogueTablesAreReplaced := by
  intro tag s hready
  have ht := officeReady_spec hready
  refine ⟨fun m d h1 h2 => ?_, fun code d h => ?_, fun c rate h => ?_, fun c rate h => ?_, fun g pr => ?_⟩
  · refine serve_unchanged (t := { s with modifiers := s.modifiers.set m (some d) }) ht (mayRequest_office rfl s) ?_ rfl rfl
    simp only [loadModifier, fin?_val, if_neg (show ¬(d < -9999 ∨ 9999 < d) by omega)]
    rfl
  · refine serve_unchanged ht (mayRequest_office rfl s) ?_ rfl rfl
    unfold loadModifier
    split
    · rfl
    · rename_i m hm
      have hcode : code < 64 := by
        by_contra hc
        simp [fin?, hc] at hm
      exact if_pos (by dsimp only; omega)
  · refine serve_unchanged (t := { s with rates := s.rates.set c rate }) ht (mayRequest_office rfl s) ?_ rfl rfl
    simp only [setTaxRate, fin?_val, if_neg (Nat.not_lt.mpr h : ¬Config.maxRate < rate)]
    rfl
  · refine serve_unchanged ht (mayRequest_office rfl s) ?_ rfl rfl
    unfold setTaxRate
    split
    · rfl
    · rename_i m hm
      have hc : c < 4 := by
        by_contra hc
        simp [fin?, hc] at hm
      exact if_pos (by dsimp only [Config.maxRate]; omega)
  · intro s'
    have hpr : priorityOfCode (priorityCode pr) = some pr := by cases pr <;> rfl
    have hall : s'.withRails allStations = { s' with stations := tableOf fun st => { s.station st with rail := s'.railOf st } } := by
      refine congrArg (fun x => { s' with stations := x }) (table_ext fun st => ?_)
      rw [tableOf_get, tableOf_get, if_pos (show st ∈ allStations from List.mem_finRange st)]
      rfl
    refine serve_answered (t := { s' with stations := tableOf fun st => { s.station st with rail := s'.railOf st } }) ht
      (mayRequest_office rfl s) ?_ rfl rfl
    simp only [setGroupPriority, fin?_val, hpr]
    have hs : recomputeRails allStations (huntAgain .office s') = _ := recomputeRails_eq allStations_nodup _
    rw [← hall]
    exact congrArg (fun x => answer x .ok) hs

/-! ### AVAILABILITY (R18) -/

/-- Settles O20: the block's out items are those stated, and the role OFF may send no request. -/
theorem availabilityPage : Obligations.AvailabilityPage := by
  intro tag first s
  refine ⟨fun p hready => ?_, fun l hready hoff => ?_⟩
  · intro out
    have ht := taken_of_any hready
    have hm : mayRequest p .availability s = true := mayRequest_of_any hready rfl
    have hout : outItems first (huntAgain p s) = out := by
      refine List.filter_congr fun i _ => ?_
      rw [huntAgain_item, Bool.eq_iff_iff, Bool.and_eq_true, Item.out_iff]
      simp [Item.Exhausted]
    have hserve (status : Status) (body : List Field) (hb : availability first (huntAgain p s) = answer (huntAgain p s) status body) :
        exec (.availability p tag (.fields first)) s = .next (s.answered p tag 0x46 status body nobody) :=
      serve_unchanged ht hm hb rfl rfl
    by_cases hf : 511 < first
    · rw [if_pos hf]
      exact hserve _ _ (if_pos hf)
    · rw [if_neg hf]
      refine hserve _ _ ?_
      simp only [availability, if_neg hf, hout]
      refine congrArg (fun body => answer (huntAgain p s) .ok body) ?_
      have hnext : out[100]? = (out.drop 100).head? := by simp
      have hpage : listField (fun i : ItemNo => [Field.ident i.val]) (out.take 100)
          = [Field.listCount (min 100 out.length)] ++ (out.take 100).map fun i => Field.ident i.val := by
        rw [listField, ← List.map_eq_flatMap, List.length_take, List.singleton_append]
      simp only [Config.availabilityPage, hnext, hpage]
      cases out.drop 100 <;> rfl
  · exact serve_unsupported availability (laneReady_spec hready) (by simp [mayRequest, hoff])

end Sys2Proof.Machine
end

section
/-! SUPPORT. A till's request on a tab, and what ADD_LINE answers (R24, R34, R35, R161). -/

namespace Sys2Proof.Machine

/-! ### A till's request on a tab -/

theorem unlockedTill_iff {l : Lane} {t : Tab} {s : State} :
    unlockedTill l t s = true ↔ (s.port l).role = .till ∧ (t.pin = none ∨ l ∈ t.unlocked) := by
  simp [unlockedTill]

@[simp] theorem naming_tab (l : Lane) (i : Slot) (s : State) : (s.naming l i).tab i = (s.tab i).named (.lane l) := by
  simp [State.naming]

@[simp] theorem naming_item (l : Lane) (i : Slot) (s : State) (m : ItemNo) : (s.naming l i).item m = s.item m := by
  simp [State.naming]

theorem naming_unlocked {l : Lane} {tag : Nat} {s : State} (h : tillReady l tag s = true) (i : Slot) :
    unlockedTill l ((s.tab i).named (.lane l)) (s.naming l i) = true ↔ (s.tab i).pin = none ∨ l ∈ (s.tab i).unlocked := by
  simp only [tillReady, Bool.and_eq_true, decide_eq_true_eq] at h
  rw [unlockedTill_iff]
  simp [State.naming, h.2]

/-- A till's request that is refused on its tab (R22, R24, R34). -/
theorem serve_tab_refused {α : Type} {k : Kind} {c : Codec α} {l : Lane} {tag : Nat} {fields : α} {n : Nat} {i : Slot}
    {missing : List Field} {body' : Lane → α → State → Answer} {cont : Slot → State → Answer} {s : State} {status : Status}
    {body : List Field} (h : tillReady l tag s = true) (hk : (senders k).till = true) (hi : s.findTab n = some i)
    (hw : ∀ u, body' l fields u = withTab (.lane l) n u cont missing)
    (hb : cont i (s.naming l i) = answer (s.naming l i) status body) :
    serveLane k c (.lane l) tag (.fields fields) body' s
      = .next (State.answered (.lane l) tag (kindCode k) status body nobody (s.setTab i ((s.tab i).named (.lane l)))) :=
  serve_tab h hk hi hw (by rw [raised_nobody]; exact hb) rfl rfl

/-- A tab and an item replaced, with TAB_CHANGED to the followers and AVAILABILITY_CHANGED where R16 says so. -/
theorem touch_updateItem (s : State) (i : Slot) (u : Tab) (m : ItemNo) (it : Item) :
    touch i (updateItem m it (s.setTab i u))
      = ((s.setTab i u).setItem m it).raised (both (toLanes .tabChanged u.followers)
        (if availabilityChanged (s.item m) it then toTills .availabilityChanged s else nobody)) := by
  rw [updateItem_eq, touch_eq, raised_raised, both_comm, raised_tab, State.setItem_tab, State.setTab_tab_self]
  rfl

theorem naming_setTab (l : Lane) (i : Slot) (s : State) (u : Tab) : (s.naming l i).setTab i u = huntAgain (.lane l) (s.setTab i u) := by
  rw [State.naming, setTab_huntAgain, State.setTab_setTab]

theorem naming_toTills (k : EventKind) (l : Lane) (i : Slot) (s : State) : toTills k (s.naming l i) = toTills k s :=
  (toTills_huntAgain k (.lane l) _).trans (toTills_congr fun _ => rfl)

theorem naming_updateItem {l : Lane} {i : Slot} {s : State} {u : Tab} {m : ItemNo} {it : Item} {P : Prop} [Decidable P]
    (hu : u.followers = (s.tab i).followers) (hP : availabilityChanged (s.item m) it = true ↔ P) :
    touch i (updateItem m it ((s.naming l i).setTab i u))
      = (huntAgain (.lane l) ((s.setTab i u).setItem m it)).raised (both (toLanes .tabChanged (s.tab i).followers)
        (if P then toTills .availabilityChanged s else nobody)) := by
  rw [touch_updateItem, naming_setTab, setItem_huntAgain, naming_item, naming_toTills, if_congr hP rfl rfl, hu]

theorem answer_congr {s t : State} {st st' : Status} {b b' : List Field} (hs : s = t) (hst : st = st') (hb : b = b') :
    answer s st b = answer t st' b' := by rw [hs, hst, hb]

/-! ### ADD_LINE (R34, R35) -/

theorem deltas_eq {s : State} {mods : List Nat} {ds : List Int}
    (h : mods.map (fun c => (fin? 64 c).bind fun m => s.modifiers.get m) = ds.map some) : s.deltas mods = some ds := by
  unfold State.deltas
  induction mods generalizing ds with
  | nil =>
    cases ds with
    | nil => rfl
    | cons d ds => cases h
  | cons c cs ih =>
    cases ds with
    | nil => cases h
    | cons d ds =>
      obtain ⟨hc, hcs⟩ := List.cons.inj h
      simp [List.mapM_cons, show (fin? 64 c).bind (fun m => s.modifiers.get m) = some d from hc, ih hcs]

/-- A price brought into range is the price asked where the price asked is in range (R28). -/
theorem clampPrice_eq_iff (raw : Int) : raw = (clampPrice raw : Int) ↔ ¬(raw < 0 ∨ 99999 < raw) := by
  unfold clampPrice Config.maxPrice
  omega

/-- Within its room a reservation brings an item out exactly when it takes all that is available (R12, R16). -/
theorem availabilityChanged_reserve {it : Item} {q : Nat} (hl : it.state = .listed) (h1 : 1 ≤ q) (hq : q ≤ it.room) :
    availabilityChanged it (it.reserve q) = true ↔ it.mode = .limited ∧ it.count = it.reserved + q := by
  rw [availabilityChanged_same (before := it) (after := it.reserve q) rfl]
  cases hm : it.mode with
  | limited =>
    simp only [Item.room, hm] at hq
    simp only [hl, Item.Exhausted, Item.reserve, hm, true_and]
    omega
  | unlimited => simp [Item.Exhausted, Item.reserve, hm]

/-- A tab with a line appended, its base raised by the line's amount (R35). -/
def Tab.withLine (x : Line) (t : Tab) : Tab := { t with lines := t.lines ++ [x], base := t.base + x.amount }

theorem enterLine_naming {l : Lane} {i : Slot} {s : State} {x : Line} {P : Prop} [Decidable P]
    (hP : availabilityChanged (s.item x.item) ((s.item x.item).reserve x.quantity) = true ↔ P) :
    enterLine i x (s.naming l i)
      = (huntAgain (.lane l)
          ((s.setTab i (((s.tab i).named (.lane l)).withLine x)).setItem x.item ((s.item x.item).reserve x.quantity))).raised
        (both (toLanes .tabChanged (s.tab i).followers) (if P then toTills .availabilityChanged s else nobody)) := by
  unfold enterLine State.modifyTab
  rw [naming_tab, naming_item]
  exact naming_updateItem (Tab.named_followers _ _) hP

/-- Settles O23: the checks passed one after another, the block's line and record are those stated. -/
theorem addLineEntersLine : Obligations.AddLineEntersLine := by
  intro l tag f i n q seat ds s hready hi hpin hopen hlen hitem hlisted hq h1 h99 hseat h24 hmods hds hroom it t raw price hbase
  have hroom' : q ≤ it.room := by
    cases hm : (s.item n).mode <;> simpa [Item.room, Config.maxCount, it, hm] using hroom
  have hops : lineOperands f (s.naming l i) = some (q, seat, ds) := by
    have hd : (s.naming l i).deltas f.mods = some ds := deltas_eq hds
    simp [lineOperands, hq, hseat, hd, h1, h99, h24, hmods]
  have hP := availabilityChanged_reserve hlisted h1 hroom'
  have hunlocked := (naming_unlocked hready i).mpr hpin
  let x := enteredLine n it q seat price f.mods
  have htab : ((s.tab i).named (.lane l)).withLine x
      = { t.named (.lane l) with lines := t.lines ++ [x], base := t.base + price * q } := by
    rw [Tab.withLine, Tab.named_lines, Tab.named_base]
    rfl
  have henter := enterLine_naming (l := l) (i := i) (x := x) hP
  rw [htab] at henter
  have hbase' : ¬Config.maxBase
      < (s.tab i).base + (enteredLine n (s.item n) q seat (clampPrice (rawPrice (s.item n).price ds)) f.mods).amount :=
    Nat.not_lt.mpr hbase
  refine serve_tab (t := (s.setTab i _).setItem n (it.reserve q)) hready rfl hi (fun _ => rfl) (Eq.trans
    (b := answer (enterLine i x (s.naming l i)) (if raw = (clampPrice raw : Int) then .ok else .clamped)
      [Field.small (t.lines.length + 1), Field.amount price, Field.amount (price * q), Field.available (it.reserve q).available])
    ?_ (answer_congr henter ((if_congr (clampPrice_eq_iff raw) rfl rfl).trans (ite_not _ _ _)) rfl)) rfl rfl
  simp only [naming_tab, naming_item, hunlocked, Tab.named_state, Tab.named_lines, Tab.named_base, hopen, hitem, fin?_val, hlisted, hops,
    if_neg (Nat.not_le.mpr hlen : ¬Config.maxLines ≤ (s.tab i).lines.length),
    if_neg (Nat.not_lt.mpr hroom' : ¬(s.item n).room < q), if_neg hbase', Bool.not_true, Bool.false_eq_true, if_false, ne_eq,
    not_true_eq_false]
  rfl

end Sys2Proof.Machine
end

section
/-! SUPPORT. VOID_LINE up to its line, its refusals, and the void of an ENTERED line (R36, R37, R40). -/

namespace Sys2Proof.Machine

/-! ### The request up to its line (R24, R36, R40) -/

/-- A till's request on a number that no tab bears (R24). -/
theorem serve_no_tab {α : Type} {k : Kind} {c : Codec α} {l : Lane} {tag : Nat} {fields : α} {n : Nat} {missing : List Field}
    {body' : Lane → α → State → Answer} {cont : Slot → State → Answer} {s : State} (h : tillReady l tag s = true)
    (hk : (senders k).till = true) (hi : s.findTab n = none) (hw : ∀ u, body' l fields u = withTab (.lane l) n u cont missing) :
    serveLane k c (.lane l) tag (.fields fields) body' s
      = .next (s.answered (.lane l) tag (kindCode k) .noTab missing nobody) := by
  simp only [tillReady, Bool.and_eq_true, decide_eq_true_eq] at h
  refine serve_unchanged (laneReady_spec h.1) (by simp [mayRequest, h.2, hk]) ?_ rfl rfl
  simp only [hw, withTab_eq, huntAgain_findTab, hi]

theorem line?_none {t : Tab} {n : Nat} (h : n = 0 ∨ t.lines.length < n) : t.line? n = none := by
  unfold Tab.line?
  split
  · rfl
  · exact List.getElem?_eq_none (by omega)

theorem Tab.named_line? (p : Port) (t : Tab) (n : Nat) : (t.named p).line? n = t.line? n := by simp [Tab.line?]

/-- The two voids that need no approval, in the state `u` before (R37, R38): the state each leaves. -/
inductive VoidedAtOnce (i : Slot) (n : Nat) (x : Line) (u : State) : State → Prop
  | entered (hx : x.state = .entered) : VoidedAtOnce i n x u (strikeEntered i n x u)
  | queued {st : StationNo} {tk : Ticket} (hx : x.state = .fired) (htk : u.ticketOf x = some (st, .queued, tk)) :
    VoidedAtOnce i n x u (pullBack i n x st tk u)

/-- A VOID_LINE that finds on an OPEN tab a line that it voids at once (R36). -/
theorem voidLine_atOnce {l : Lane} {tag : Nat} {f : VoidLineFields} {i : Slot} {x : Line} {s t w : State} {r : Raised}
    (h : tillReady l tag s = true) (hi : s.findTab f.tab = some i) (hpin : (s.tab i).pin = none ∨ l ∈ (s.tab i).unlocked)
    (hopen : (s.tab i).state = .opened) (hx : (s.tab i).line? f.line = some x) (hp : x.pending = none)
    (hv : VoidedAtOnce i f.line x (s.naming l i) w) (hw : w = (huntAgain (.lane l) t).raised r)
    (hports : t.ports = s.ports) (ho : t.officeReceiver = s.officeReceiver) :
    exec (.voidLine (.lane l) tag (.fields f)) s
      = .next (t.answered (.lane l) tag 0x04 .ok [Field.small f.line, Field.code 3] r) := by
  refine serve_tab h rfl hi (fun _ => rfl) (hw ▸ ?_) hports ho
  have hunlocked := (naming_unlocked h i).mpr hpin
  cases hv with
  | entered he =>
    simp only [naming_tab, hunlocked, Tab.named_state, hopen, Tab.named_line?, hx, hp, he, Bool.not_true, Bool.false_eq_true,
      if_false, ne_eq, not_true_eq_false, Option.isSome_none]
    rfl
  | queued he htk =>
    simp only [naming_tab, hunlocked, Tab.named_state, hopen, Tab.named_line?, hx, hp, he, htk, Bool.not_true, Bool.false_eq_true,
      if_false, ne_eq, not_true_eq_false, Option.isSome_none]
    rfl

/-- The claim restarted and the line VOIDED: the figures of the tab that both touch apart (R30, R161). -/
theorem Tab.voidLine_named (p : Port) (t : Tab) (n : Nat) (x : Line) :
    (t.named p).voidLine n x
      = { t.named p with
          base := t.base - if x.comped then 0 else x.price * x.quantity
          lines := t.lines.set (n - 1) { x with state := .voided, ticket := none } } := by
  rw [Tab.voidLine, Tab.setLine, Tab.named_lines, Tab.named_base]
  rfl

/-! ### VOID_LINE of an ENTERED line, and its refusals (R36, R37, R40) -/

/-- Settles O24: the checks in their order, then the void of an ENTERED line. -/
theorem voidEnteredLine : Obligations.VoidEnteredLine := by
  refine ⟨fun l tag f s hready => ⟨fun hi => serve_no_tab hready rfl hi fun _ => rfl, fun i hi => ?_⟩, ?_⟩
  · refine ⟨fun hpin hl => ?_, fun hpin => ?_⟩
    · have hlocked := mt (naming_unlocked hready i).mp (not_or.mpr ⟨hpin, hl⟩)
      refine serve_tab_refused hready rfl hi (fun _ => rfl) ?_
      simp only [naming_tab, hlocked, Bool.not_false, if_true]
      rfl
    · have hunlocked := (naming_unlocked hready i).mpr hpin
      have hnot {st : TabState} (hst : (s.tab i).state = st) (hne : st ≠ .opened) :
          exec (.voidLine (.lane l) tag (.fields f)) s
            = .next (State.answered (.lane l) tag 0x04 (notOpen st) [Field.small f.line] nobody
                (s.setTab i ((s.tab i).named (.lane l)))) := by
        refine serve_tab_refused hready rfl hi (fun _ => rfl) ?_
        simp only [naming_tab, hunlocked, Tab.named_state, hst, hne, Bool.not_true, Bool.false_eq_true, if_false, ne_eq,
          not_false_eq_true, if_true]
        rfl
      refine ⟨fun hst => hnot hst (by decide), fun hst => ?_, fun hopen hline => ?_⟩
      · rcases hst with hst | hst
        · exact hnot hst (by decide)
        · exact hnot hst (by decide)
      · refine serve_tab_refused hready rfl hi (fun _ => rfl) ?_
        simp only [naming_tab, hunlocked, Tab.named_state, hopen, Tab.named_line?, line?_none hline, Bool.not_true,
          Bool.false_eq_true, if_false, ne_eq, not_true_eq_false]
        rfl
  · intro l tag f i x s hready hi hpin hopen h1 hget hentered hp t it wasOut isOut
    refine voidLine_atOnce hready hi hpin hopen (line?_eq.mpr ⟨h1, hget⟩) hp (.entered hentered) ?_ rfl rfl
    have hrelease := availabilityChanged_same (before := it) (after := it.release x.quantity) rfl
    unfold strikeEntered State.modifyTab
    beta_reduce
    rw [naming_tab, naming_item, Tab.voidLine_named]
    exact naming_updateItem (Tab.named_followers _ _) hrelease

end Sys2Proof.Machine
end

section
/-! SUPPORT. VOID_LINE of a line on a QUEUED ticket: what the pull-back leaves (R15, R38, R78 to R80). -/

namespace Sys2Proof.Machine

/-! ### A line leaves its ticket (R78) -/

theorem removeFrom_absent {n k : Nat} {ts : List Ticket} (h : ∀ y ∈ ts, y.number ≠ n) : removeFrom n k ts = ts :=
  (List.filterMap_congr fun y hy => if_neg (h y hy)).trans List.filterMap_some

/-- Tickets that hold another line stay, one line the shorter. -/
theorem removeFrom_shortened {n k : Nat} {ts : List Ticket} (h : ∀ y ∈ ts, y.number = n → ∃ other ∈ y.lines, other ≠ k) :
    removeFrom n k ts = ts.map fun y => if y.number = n then { y with lines := y.lines.filter fun j => j ≠ k } else y := by
  rw [← List.filterMap_eq_map]
  refine List.filterMap_congr fun y hy => ?_
  by_cases hn : y.number = n
  · obtain ⟨other, hmem, hne⟩ := h y hy hn
    have hrest : y.lines.filter (fun j => j ≠ k) ≠ [] := List.ne_nil_of_mem (List.mem_filter.mpr ⟨hmem, decide_eq_true hne⟩)
    simp only [Function.comp_apply, if_pos hn, if_neg hrest]
  · simp only [Function.comp_apply, if_neg hn]

/-- Tickets that hold no other line are gone. -/
theorem removeFrom_emptied {n k : Nat} {ts : List Ticket} (h : ∀ y ∈ ts, y.number = n → ∀ other ∈ y.lines, other = k) :
    removeFrom n k ts = ts.filter fun y => y.number ≠ n := by
  rw [← List.filterMap_eq_filter]
  refine List.filterMap_congr fun y hy => ?_
  by_cases hn : y.number = n
  · have hrest : y.lines.filter (fun j => j ≠ k) = [] := List.filter_eq_nil_iff.mpr fun j hj => by simp [h y hy hn j hj]
    rw [if_pos hn, if_pos hrest, Option.guard_eq_none_iff.mpr (by simp [hn])]
  · simp [hn]

/-- A ticket that stands only in the queue leaves the other places of its station alone. -/
theorem Station.removeLine_queued {n k : Nat} {x : Station} (h : ∀ y ∈ x.stack ++ x.inWork.toList, y.number ≠ n) :
    x.removeLine n k = { x with queue := removeFrom n k x.queue } := by
  have hstack : removeFrom n k x.stack = x.stack := removeFrom_absent fun y hy => h y (List.mem_append_left _ hy)
  have hwork : (removeFrom n k x.inWork.toList).head? = x.inWork := by
    rw [removeFrom_absent fun y hy => h y (List.mem_append_right _ hy)]
    cases x.inWork <;> rfl
  rw [Station.removeLine, hstack, hwork]

theorem emptiedBy_iff {tk : Ticket} {k : Nat} : tk.emptiedBy k = true ↔ ∀ other ∈ tk.lines, other = k := by
  simp [Ticket.emptiedBy]

/-- A LIMITED count rises, not above 9,999; an UNLIMITED one stays (R15). -/
theorem Item.restore_eq (q : Nat) (it : Item) :
    it.restore q = { it with count := if it.mode = .limited then min (it.count + q) 9999 else it.count } := by
  rcases it with ⟨_, _, _, _, _, mode, _, _⟩
  cases mode
  · rfl
  · rfl

/-! ### What a pull-back leaves -/

theorem naming_setStation (l : Lane) (i : Slot) (s : State) (st : StationNo) (x : Station) :
    (s.naming l i).setStation st x = (s.setStation st x).naming l i := setStation_huntAgain _ _ _ _

theorem naming_findLive (l : Lane) (i : Slot) (s : State) (n : Nat) : (s.naming l i).findLive n = s.findLive n := rfl

theorem naming_modifyStation (l : Lane) (i : Slot) (s : State) (st : StationNo) (f : Station → Station) :
    (s.naming l i).modifyStation st f = (s.setStation st (f (s.station st))).naming l i := naming_setStation l i s st _

section
variable {l : Lane} {i : Slot} {n : Nat} {x : Line} {st : StationNo} {tk : Ticket} {s w : State} {y : Station} {u : Tab} {P : Prop}
  [Decidable P]

/-- A pull-back from a ticket that holds other lines (R78, R79). -/
theorem pullBack_shortened (he : ¬tk.emptiedBy n = true) (hy : (s.station st).removeLine tk.number n = y)
    (hu : ((s.tab i).named (.lane l)).voidLine n x = u)
    (hP : availabilityChanged (s.item x.item) ((s.item x.item).restore x.quantity) = true ↔ P)
    (hw : ((s.setStation st y).setTab i u).setItem x.item ((s.item x.item).restore x.quantity) = w) :
    pullBack i n x st tk (s.naming l i)
      = (huntAgain (.lane l) w).raised
          (both (toLanes .tabChanged (s.tab i).followers) (if P then toTills .availabilityChanged s else nobody)) := by
  have hfollowers : u.followers = (s.tab i).followers := by rw [← hu]; exact Tab.named_followers _ _
  have hitem : (s.setStation st y).item x.item = s.item x.item := rfl
  have htab : (s.setStation st y).tab i = s.tab i := rfl
  simp only [pullBack, naming_modifyStation, hy, if_neg he, State.modifyTab, naming_tab, State.setTab_item, naming_item]
  rw [hitem, htab, hu, naming_updateItem (s := s.setStation st y) hfollowers hP, hw]
  rfl

@[simp] theorem recomputeRail_tab (st : StationNo) (s : State) (i : Slot) : (recomputeRail st s).tab i = s.tab i := by
  rw [recomputeRail_eq]
  rfl

@[simp] theorem recomputeRail_item (st : StationNo) (s : State) (m : ItemNo) : (recomputeRail st s).item m = s.item m := by
  rw [recomputeRail_eq]
  rfl

/-- A rail brought up to date under a tab and an item replaced (R16, R91). -/
theorem touch_recomputeRail (v : State) (i : Slot) (u : Tab) (m : ItemNo) (it : Item) (st : StationNo) :
    touch i (updateItem m it ((recomputeRail st v).setTab i u))
      = (((v.setTab i u).setItem m it).withRail st).raised (both
          (both (toLanes .tabChanged u.followers)
            (if availabilityChanged (v.item m) it then toTills .availabilityChanged v else nobody))
          (railRaised st v)) := by
  have htills : toTills .availabilityChanged ((v.withRail st).raised (railRaised st v)) = toTills .availabilityChanged v :=
    toTills_congr fun l => by rw [raised_port]; rfl
  rw [recomputeRail_eq, touch_updateItem, htills, setTab_raised, setItem_raised, raised_raised, both_comm (railRaised st v)]
  rfl

/-- A pull-back that empties its ticket (R78 to R80). -/
theorem pullBack_emptied (he : tk.emptiedBy n = true) (hy : (s.station st).removeLine tk.number n = y)
    (hu : ((s.tab i).named (.lane l)).oneTicketLess.voidLine n x = u)
    (hP : availabilityChanged (s.item x.item) ((s.item x.item).restore x.quantity) = true ↔ P)
    (hw : ((s.setStation st y).setTab i u).setItem x.item ((s.item x.item).restore x.quantity) = w) :
    pullBack i n x st tk (s.naming l i)
      = (huntAgain (.lane l) (w.withRail st)).raised (both
          (both (toLanes .tabChanged (s.tab i).followers) (if P then toTills .availabilityChanged s else nobody))
          (railRaised st w)) := by
  have hfollowers : u.followers = (s.tab i).followers := by rw [← hu]; exact Tab.named_followers _ _
  simp only [pullBack, naming_modifyStation, hy, if_pos he, State.modifyTab, naming_tab, recomputeRail_tab, State.setTab_tab_self,
    State.setTab_item, recomputeRail_item, naming_item]
  have htills : toTills .availabilityChanged ((s.setStation st y).setTab i ((s.tab i).named (.lane l)).oneTicketLess)
      = toTills .availabilityChanged s := toTills_congr fun _ => rfl
  have hrail : railRaised st (huntAgain (.lane l) ((s.setStation st y).setTab i ((s.tab i).named (.lane l)).oneTicketLess))
      = railRaised st w := by rw [← hw]; rfl
  have hitem : (s.setStation st y).item x.item = s.item x.item := rfl
  have htab : (s.setStation st y).tab i = s.tab i := rfl
  rw [hitem, htab, touch_recomputeRail, naming_setTab, hu, hfollowers, setTab_huntAgain, State.setTab_setTab, setItem_huntAgain, hw,
    toTills_huntAgain, huntAgain_item, State.setTab_item, hitem, if_congr hP rfl rfl, htills, hrail]
  rfl

end

theorem Tab.oneTicketLess_voidLine_named (p : Port) (t : Tab) (n : Nat) (x : Line) :
    (t.named p).oneTicketLess.voidLine n x
      = { t.named p with
          base := t.base - if x.comped then 0 else x.price * x.quantity
          live := t.live - 1
          lines := t.lines.set (n - 1) { x with state := .voided, ticket := none } } := by
  have hcomm : (t.named p).oneTicketLess.voidLine n x = ((t.named p).voidLine n x).oneTicketLess := rfl
  rw [hcomm, Tab.voidLine_named, Tab.oneTicketLess, Tab.named_live]

/-- Settles O25: the queue loses the line or the whole ticket, and the rest is the pull-back's. -/
theorem pullBackFromQueuedTicket : Obligations.PullBackFromQueuedTicket := by
  intro l tag f i x tk st n s hready hi hpin hopen h1 hget hfired hp hticket hlive hplaces hqueue t it grown wasOut isOut raised
  obtain ⟨rfl, -⟩ := findLive_some hlive
  have htk : (s.naming l i).ticketOf x = some (st, .queued, tk) := by
    rw [State.ticketOf, hticket]
    exact hlive
  have hvoided {t' : State} {r : Raised} (hports : t'.ports = s.ports) (ho : t'.officeReceiver = s.officeReceiver)
      (hw : pullBack i f.line x st tk (s.naming l i) = (huntAgain (.lane l) t').raised r) :=
    voidLine_atOnce hready hi hpin hopen (line?_eq.mpr ⟨h1, hget⟩) hp (.queued hfired htk) hw hports ho
  have hrestore : it.restore x.quantity = { it with count := grown } := Item.restore_eq _ _
  have hP : availabilityChanged it (it.restore x.quantity) = true ↔ it.state = .listed ∧ ¬(wasOut ↔ isOut) := by
    rw [hrestore]
    exact availabilityChanged_same rfl
  have hstation {q : List Ticket} (hq : removeFrom tk.number f.line (s.station st).queue = q) :
      (s.station st).removeLine tk.number f.line = { s.station st with queue := q } := hq ▸ Station.removeLine_queued hplaces
  refine ⟨fun other hother hne => hvoided rfl rfl ?_, fun hlast => hvoided rfl rfl ?_⟩
  · have hstays : ∀ y ∈ (s.station st).queue, y.number = tk.number → ∃ other ∈ y.lines, other ≠ f.line :=
      fun y hy hn => ⟨other, by rwa [hqueue y hy hn], hne⟩
    exact pullBack_shortened (fun he => hne (emptiedBy_iff.mp he other hother)) (hstation (removeFrom_shortened hstays))
      (Tab.voidLine_named _ _ _ _) hP (by rw [hrestore]; rfl)
  · have hgoes : ∀ y ∈ (s.station st).queue, y.number = tk.number → ∀ other ∈ y.lines, other = f.line :=
      fun y hy hn => by rwa [hqueue y hy hn]
    exact pullBack_emptied (emptiedBy_iff.mpr hlast) (hstation (removeFrom_emptied hgoes))
      (Tab.oneTicketLess_voidLine_named _ _ _ _) hP (by rw [hrestore]; rfl)

end Sys2Proof.Machine
end

section
/-! SUPPORT. The running bases (R30): what each operation leaves of the agreement between a tab's base and its lines. -/

namespace Sys2Proof.Machine

/-! ### A tab whose base agrees with its lines (R28, R30) -/

/-- What a line counts for in the running base of its tab (R30). -/
def Line.due (x : Line) : Nat := if x.state = .voided then 0 else x.amount

/-- A tab whose running base is the sum of the amounts of its lines that are not VOIDED (R30). -/
def Tab.Balanced (t : Tab) : Prop := t.base = t.owed

theorem Tab.owed_eq_due (t : Tab) : t.owed = (t.lines.map Line.due).sum := t.owed_eq

theorem Line.due_of_not_voided {x : Line} (h : x.state ≠ .voided) : x.due = x.amount := if_neg h

theorem Tab.Balanced.of_same {t u : Tab} (hb : u.base = t.base) (hl : u.lines = t.lines) (h : t.Balanced) : u.Balanced := by
  unfold Tab.Balanced Tab.owed at *
  rw [hb, hl, h]

/-- A tab with one line replaced and its base moved by the difference of what the two lines count for. -/
theorem Tab.Balanced.replace {t u : Tab} {n : Nat} {x y : Line} (hx : t.line? n = some x)
    (hl : u.lines = t.lines.set (n - 1) y) (hb : x.due ≤ t.base → u.base + x.due = t.base + y.due) (h : t.Balanced) :
    u.Balanced := by
  have hle : x.due ≤ t.base := h ▸ t.owed_eq_due ▸ sum_lines_ge hx
  have hsum : u.owed + x.due = t.owed + y.due := by
    rw [Tab.owed_eq_due, Tab.owed_eq_due, hl]
    exact sum_set (line?_eq.mp hx).2 y
  have := hb hle
  unfold Tab.Balanced at *
  omega

/-- One line replaced by a line that counts for the same, the base kept. -/
theorem Tab.Balanced.setLine {t : Tab} {n : Nat} {x y : Line} (hx : t.line? n = some x) (hy : y.due = x.due) (h : t.Balanced) :
    (t.setLine n y).Balanced :=
  h.replace hx rfl fun _ => by rw [hy]; rfl

theorem Tab.Balanced.voidLine {t : Tab} {n : Nat} {x : Line} (hx : t.line? n = some x) (hs : x.state ≠ .voided)
    (h : t.Balanced) : (t.voidLine n x).Balanced := by
  refine h.replace hx rfl fun hle => ?_
  rw [Line.due_of_not_voided hs] at hle ⊢
  exact Nat.sub_add_cancel hle

theorem Tab.Balanced.compLine {t : Tab} {n : Nat} {x : Line} (hx : t.line? n = some x) (hs : x.state ≠ .voided)
    (h : t.Balanced) : (t.compLine n x).Balanced := by
  refine h.replace hx rfl fun hle => ?_
  have hy : ({ x with comped := true } : Line).due = 0 := Line.due_of_not_voided hs
  rw [Line.due_of_not_voided hs] at hle ⊢
  rw [hy]
  exact Nat.sub_add_cancel hle

theorem Tab.Balanced.priceLine {t : Tab} {n : Nat} {x : Line} (hx : t.line? n = some x) (hs : x.state ≠ .voided) (price : Nat)
    (h : t.Balanced) : (t.priceLine n x price).Balanced := by
  refine h.replace hx rfl fun hle => ?_
  have hy : ({ x with price := price } : Line).due = if x.comped then 0 else price * x.quantity := Line.due_of_not_voided hs
  rw [Line.due_of_not_voided hs] at hle ⊢
  rw [hy]
  change t.newBase x price + _ = _
  unfold Tab.newBase
  split
  · simp [Line.amount, *]
  · omega

theorem Tab.Balanced.markLine {t : Tab} (n : Nat) (pending : Option Nat) (h : t.Balanced) : (t.markLine n pending).Balanced := by
  unfold Tab.markLine
  split
  · rename_i x hx
    exact h.setLine (y := { x with pending := pending }) hx rfl
  · exact h

theorem Tab.Balanced.appendLine {t : Tab} {x : Line} (hs : x.state ≠ .voided) (h : t.Balanced) :
    ({ t with lines := t.lines ++ [x], base := t.base + x.amount } : Tab).Balanced := by
  have ho := t.owed_append x
  rw [if_neg hs] at ho
  exact (congrArg (· + x.amount) h).trans ho.symm

/-- Lines changed without touching what they count for. -/
theorem Tab.Balanced.changeLines {t : Tab} (ns : List Nat) {f : Line → Line} (hf : ∀ x, (f x).due = x.due) (h : t.Balanced) :
    (t.changeLines ns f).Balanced := by
  have hl : (t.changeLines ns f).lines.map Line.due = t.lines.zipIdx.map (Line.due ∘ Prod.fst) := by
    simp only [Tab.changeLines, List.map_map]
    refine List.map_congr_left fun p _ => ?_
    simp only [Function.comp_apply]
    split
    · exact hf _
    · rfl
  unfold Tab.Balanced at *
  rw [Tab.owed_eq_due, hl, ← List.map_map, List.zipIdx_map_fst, ← Tab.owed_eq_due]
  exact h

theorem serveLine_due (x : Line) : (serveLine x).due = x.due := by
  unfold serveLine
  split
  · simp [Line.due, Line.amount, *]
  · rfl

theorem unserveLine_due (x : Line) : (unserveLine x).due = x.due := by
  unfold unserveLine
  split
  · simp [Line.due, Line.amount, *]
  · rfl

/-! ### A state whose bases agree -/

/-- A change of state after which the base of every tab agrees with its lines if it did before. -/
def KeepsBases (s t : State) : Prop := ∀ i, (s.tab i).Balanced → (t.tab i).Balanced

theorem KeepsBases.refl (s : State) : KeepsBases s s := fun _ => id

theorem KeepsBases.trans {s t u : State} (h : KeepsBases s t) (h' : KeepsBases t u) : KeepsBases s u := fun i => h' i ∘ h i

theorem keepsBases_of_tabs {s t : State} (h : t.tabs = s.tabs) : KeepsBases s t := fun i => by
  rw [State.tab_congr h]
  exact id

theorem SameBooks.bases {s t : State} (h : SameBooks s t) : KeepsBases s t := keepsBases_of_tabs h.tabs

theorem KeepsBases.same {s t u : State} (h : KeepsBases s t) (h' : SameBooks t u) : KeepsBases s u := h.trans h'.bases

theorem KeepsBases.touch {s t : State} {i : Slot} (h : KeepsBases s t) : KeepsBases s (touch i t) := h.same (same_touch i t)

theorem KeepsBases.answer {s t : State} {status : Status} {body : List Field} (h : KeepsBases s t) :
    KeepsBases s (Machine.answer t status body).1 := h

/-- One tab replaced. -/
theorem keepsBases_setTab {s : State} {i : Slot} {u : Tab} (h : (s.tab i).Balanced → u.Balanced) : KeepsBases s (s.setTab i u) :=
  fun j => by
    rw [State.setTab_tab]
    split
    · subst_vars; exact h
    · exact id

theorem KeepsBases.modifyTab {s t : State} {i : Slot} {f : Tab → Tab} (h : KeepsBases s t)
    (hf : (t.tab i).Balanced → (f (t.tab i)).Balanced) : KeepsBases s (t.modifyTab i f) := h.trans (keepsBases_setTab hf)

theorem keepsBases_modifyTab {s : State} {i : Slot} {f : Tab → Tab} (hf : (s.tab i).Balanced → (f (s.tab i)).Balanced) :
    KeepsBases s (s.modifyTab i f) := keepsBases_setTab hf

/-- Every tab replaced by one with the same base and lines. -/
theorem keepsBases_tabs {s t : State} (f : Slot → Tab) (ht : t.tabs = tableOf f) (hb : ∀ i, (f i).base = (s.tab i).base)
    (hl : ∀ i, (f i).lines = (s.tab i).lines) : KeepsBases s t := fun i h => by
  simp only [State.tab, ht, tableOf_get]
  exact h.of_same (hb i) (hl i)

theorem Tab.balanced_blank : Tab.blank.Balanced := rfl

/-- A device reset leaves 128 FREE slots (R186). -/
theorem keepsBases_reset {s t : State} (h : t.tabs = State.reset.tabs) : KeepsBases s t := fun i _ => by
  rw [State.tab_congr h, State.reset_tab]
  exact Tab.balanced_blank

/-- A request that names a tab keeps the bases where its continuation does (R24, R161). -/
theorem withTab_bases {p : Port} {n : Nat} {s : State} {k : Slot → State → Answer} {missing : List Field}
    (h : ∀ i u, KeepsBases u (k i u).1) : KeepsBases s (withTab p n s k missing).1 := by
  rw [withTab_eq]
  split
  · exact .refl s
  · exact (keepsBases_setTab fun hb => hb.of_same (by simp) (by simp)).trans (h _ _)

end Sys2Proof.Machine
end

section
/-! SUPPORT. What each request's block leaves of the running bases (R30), in the order of the model's files. -/

namespace Sys2Proof.Machine

/-! ### Approvals (R110 to R130) -/

theorem queueEntry_bases (l : Lane) (i : Slot) (ask : Ask) (reason : Nat) (s : State) :
    KeepsBases s (queueEntry l i ask reason s) := by
  unfold queueEntry
  dsimp only
  split
  · refine KeepsBases.same (KeepsBases.touch (KeepsBases.modifyTab ?_ (Tab.Balanced.markLine _ _))) (same_raisePort _ _ _)
    exact keepsBases_of_tabs rfl
  · refine keepsBases_of_tabs (Eq.trans (same_raisePort _ _ _).tabs ?_)
    rfl

theorem supervise_bases {l : Lane} {i : Slot} {ask : Ask} {reason : Nat} {s : State} {applied full : Answer}
    {queuedBody : Nat → List Field} (ha : KeepsBases s applied.1) (hf : KeepsBases s full.1) :
    KeepsBases s (supervise l i ask reason s applied full queuedBody).1 := by
  rcases supervise_cases l i ask reason s applied full queuedBody with ⟨-, h⟩ | ⟨-, -, h⟩ | ⟨-, -, h⟩ <;> rw [h]
  · exact ha
  · exact hf
  · exact queueEntry_bases l i ask reason s

theorem decideEntry_bases (v : Verdict) (e : Entry) (s : State) : KeepsBases s (decideEntry v e s) := by
  have hc : KeepsBases s (clearPending e s) := by
    unfold clearPending
    split
    · exact (keepsBases_modifyTab (Tab.Balanced.markLine _ _)).touch
    · exact .refl s
  exact hc.same (same_closeEntries v [e] _)

theorem applyVoidFired_bases {i : Slot} {n : Nat} {x : Line} {s : State} (hx : (s.tab i).line? n = some x)
    (hs : x.state ≠ .voided) : KeepsBases s (applyVoidFired i n s) := by
  unfold applyVoidFired
  rw [hx]
  dsimp only
  split
  · exact .refl s
  · rename_i st _ tk _
    have hm : KeepsBases s (s.modifyStation st (Station.removeLine tk.number n)) := keepsBases_of_tabs rfl
    split
    · have hl := (hm.modifyTab (i := i) (f := Tab.oneTicketLess) fun h => h.of_same rfl rfl).same
        (same_raiseLanes .ticketKilled (s.station st).port.toList _)
      refine KeepsBases.touch (KeepsBases.modifyTab hl (Tab.Balanced.voidLine ?_ hs))
      exact (congrArg (fun t : Tab => t.line? n) (State.setTab_tab_self _ i _)).trans hx
    · exact KeepsBases.touch (KeepsBases.modifyTab hm (Tab.Balanced.voidLine hx hs))

theorem applyComp_bases {i : Slot} {n : Nat} {x : Line} {s : State} (hx : (s.tab i).line? n = some x)
    (hs : x.state ≠ .voided) : KeepsBases s (applyComp i n s) := by
  unfold applyComp
  rw [hx]
  dsimp only
  split
  · exact .refl s
  · exact KeepsBases.touch (keepsBases_modifyTab (Tab.Balanced.compLine hx hs))

theorem applyPrice_bases {i : Slot} {n : Nat} {x : Line} {s : State} (hx : (s.tab i).line? n = some x)
    (hs : x.state ≠ .voided) (price : Nat) : KeepsBases s (applyPrice i n price s) := by
  unfold applyPrice
  rw [hx]
  exact (keepsBases_modifyTab (Tab.Balanced.priceLine hx hs price)).touch

theorem applyPinClear_bases (i : Slot) (s : State) : KeepsBases s (applyPinClear i s) :=
  (keepsBases_modifyTab fun h => h.of_same rfl rfl).touch

/-- The effect of an entry whose precondition holds (R120 to R125): it voids, comps or prices no VOIDED line. -/
theorem applyAsk_bases {i : Slot} {ask : Ask} {s : State} (h : askReady i ask s = true) : KeepsBases s (applyAsk i ask s) := by
  cases ask with
  | voidFired n =>
    simp only [askReady, voidFiredReady] at h
    split at h
    · rename_i x hx
      simp only [Bool.and_eq_true, decide_eq_true_eq] at h
      exact applyVoidFired_bases hx (by simp [h.1])
    · cases h
  | comp n =>
    simp only [askReady, compReady] at h
    split at h
    · rename_i x hx
      simp only [Bool.and_eq_true, decide_eq_true_eq] at h
      exact applyComp_bases hx h.1
    · cases h
  | price n p =>
    simp only [askReady, priceReady] at h
    split at h
    · rename_i x hx
      simp only [Bool.and_eq_true, decide_eq_true_eq] at h
      exact applyPrice_bases hx h.1.1 p
    · cases h
  | pinClear => exact applyPinClear_bases i s
  | undoTender k => exact (same_applyUndo i k s).bases

theorem approve_bases (p : Port) (n : Nat) (s : State) : KeepsBases s (approve p n s).1 := by
  unfold approve
  split
  · exact .refl s
  split
  · exact .refl s
  · unfold approveEntry
    split
    · split
      · exact (applyAsk_bases ‹_›).trans (decideEntry_bases _ _ _)
      · exact decideEntry_bases _ _ _
    · exact decideEntry_bases _ _ _

theorem deny_bases (p : Port) (n : Nat) (s : State) : KeepsBases s (deny p n s).1 := by
  unfold deny
  split
  · exact .refl s
  split
  · exact .refl s
  · exact decideEntry_bases _ _ _

theorem withdraw_bases (l : Lane) (n : Nat) (s : State) : KeepsBases s (withdraw l n s).1 := by
  unfold withdraw
  split
  · exact .refl s
  split
  · exact .refl s
  · exact decideEntry_bases _ _ _

theorem passSupervisor_tabs (p : Port) (n : Nat) (s : State) : (passSupervisor p n s).1.tabs = s.tabs := by
  unfold passSupervisor
  split
  · rfl
  split
  · rfl
  · split
    · rfl
    split
    · rfl
    · exact (same_announceQueue _).tabs.trans ((same_raisePort _ _ _).tabs.trans (same_raisePort _ _ _).tabs)

theorem reclaim_tabs (f : Unit) (s : State) : (reclaim f s).1.tabs = s.tabs := by
  unfold reclaim
  split
  · rfl
  · exact (same_announceQueue _).tabs

theorem approvalList_tabs (p : Port) (start : Nat) (s : State) : (approvalList p start s).1.tabs = s.tabs := by
  unfold approvalList
  split
  · rfl
  split <;> rfl

/-! ### The catalogue (R3 to R10, R18) -/

theorem updateItem_tabs (m : ItemNo) (it : Item) (s : State) : (updateItem m it s).tabs = s.tabs := (updateItem_same m it s).tabs

theorem loadItem_tabs (f : LoadItemFields) (s : State) : (loadItem f s).1.tabs = s.tabs := by
  unfold loadItem
  split
  · split
    · rfl
    · exact updateItem_tabs _ _ s
  · rfl

theorem withdrawItem_tabs (n : Nat) (s : State) : (withdrawItem n s).1.tabs = s.tabs := by
  unfold withdrawItem
  split
  · rfl
  split
  · rfl
  · rfl
  · exact updateItem_tabs _ _ s

theorem setCount_tabs (p : Port) (f : SetCountFields) (s : State) : (setCount p f s).1.tabs = s.tabs := by
  unfold setCount
  split
  · rfl
  dsimp only
  split
  · rfl
  split
  · exact updateItem_tabs _ _ s
  · rfl

theorem loadModifier_tabs (f : LoadModifierFields) (s : State) : (loadModifier f s).1.tabs = s.tabs := by
  unfold loadModifier
  split
  · rfl
  split <;> rfl

theorem setTaxRate_tabs (f : SetTaxRateFields) (s : State) : (setTaxRate f s).1.tabs = s.tabs := by
  unfold setTaxRate
  split
  · rfl
  split <;> rfl

theorem setGroupPriority_bases (f : SetGroupPriorityFields) (s : State) : KeepsBases s (setGroupPriority f s).1 := by
  unfold setGroupPriority
  split
  · rename_i g pr _ _
    have h : SameBooks s { s with priorities := s.priorities.set g pr } := ⟨rfl, rfl, rfl, rfl⟩
    exact KeepsBases.answer (h.trans (same_recomputeRails allStations _)).bases
  · exact .refl s

theorem availability_tabs (first : Nat) (s : State) : (availability first s).1.tabs = s.tabs := by
  unfold availability
  split <;> rfl

/-! ### FIRE (R68 to R77) -/

/-- One line of a FIRE (R74): an ENTERED line counts for the same when it is FIRED. -/
theorem fireLine_bases (i : Slot) (number : Nat) (s : State) (n : Nat) : KeepsBases s (fireLine i number s n) := by
  unfold fireLine
  split
  · exact .refl s
  · rename_i x hx
    split
    · refine KeepsBases.modifyTab (t := s.setItem x.item _) (keepsBases_of_tabs rfl) (Tab.Balanced.setLine hx ?_)
      simp [Line.due, Line.amount, *]
    · exact .refl s

theorem fireLines_bases (i : Slot) (number : Nat) (ns : List Nat) (s : State) :
    KeepsBases s (ns.foldl (fireLine i number) s) := by
  induction ns generalizing s with
  | nil => exact .refl s
  | cons n ns ih => exact (fireLine_bases i number s n).trans (ih _)

theorem createTicket_bases (i : Slot) (s : State) (d : Draft) : KeepsBases s (createTicket i s d) := by
  unfold createTicket
  refine KeepsBases.trans (KeepsBases.modifyTab (t := State.modifyStation { s with ticketCounter := _, fireSeq := _ } d.station _)
    (keepsBases_of_tabs rfl) fun h => ?_) (fireLines_bases _ _ _ _)
  exact h.of_same rfl rfl

theorem createTickets_bases (i : Slot) (ds : List Draft) (s : State) : KeepsBases s (createTickets i ds s).1 := by
  induction ds generalizing s with
  | nil => exact .refl s
  | cons d ds ih => exact (createTicket_bases i s d).trans (ih _)

theorem fire_bases (l : Lane) (f : FireFields) (s : State) : KeepsBases s (fire l f s).1 := by
  refine withTab_bases fun i s => ?_
  dsimp only
  split
  · exact .refl s
  split
  · exact .refl s
  split
  · exact .refl s
  split
  · exact .refl s
  split
  · exact .refl s
  split
  · exact .refl s
  split
  · exact .refl s
  · exact (createTickets_bases i _ s).same ((same_recomputeRails _ _).trans (same_touch i _))

/-! ### Tabs (R25 to R47) -/

theorem openTab_bases (l : Lane) (f : OpenTabFields) (s : State) : KeepsBases s (openTab l f s).1 := by
  unfold openTab
  split
  · exact .refl s
  rename_i i _
  split
  · exact .refl s
  · have h : KeepsBases s (s.setTab i (openedTab s.nextTabNumber l f s.clock)) :=
      keepsBases_setTab fun _ => Tab.balanced_blank.of_same rfl rfl
    exact h.trans (keepsBases_of_tabs rfl)

theorem tabView_bases (p : Port) (f : TabPageFields) (s : State) : KeepsBases s (tabView p f s).1 :=
  withTab_bases fun i s => by
    dsimp only
    split <;> exact .refl s

/-- A line entered (R35): the base rises by its amount. -/
theorem enterLine_bases {s : State} {i : Slot} {x : Line} (h : x.state ≠ .voided) : KeepsBases s (enterLine i x s) :=
  ((keepsBases_modifyTab (f := fun t => { t with lines := t.lines ++ [x], base := t.base + x.amount })
    (Tab.Balanced.appendLine h)).trans (keepsBases_of_tabs (updateItem_tabs _ _ _))).touch

theorem addLine_bases (l : Lane) (f : AddLineFields) (s : State) : KeepsBases s (addLine l f s).1 := by
  refine withTab_bases fun i s => ?_
  dsimp only
  split
  · exact .refl s
  split
  · exact .refl s
  split
  · exact .refl s
  split
  · exact .refl s
  split
  · exact .refl s
  split
  · exact .refl s
  split
  · exact .refl s
  split
  · exact .refl s
  · exact enterLine_bases (by simp [enteredLine])

theorem strikeEntered_bases {s : State} {i : Slot} {n : Nat} {x : Line} (hx : (s.tab i).line? n = some x)
    (hs : x.state ≠ .voided) : KeepsBases s (strikeEntered i n x s) :=
  ((keepsBases_modifyTab (Tab.Balanced.voidLine hx hs)).trans (keepsBases_of_tabs (updateItem_tabs _ _ _))).touch

theorem pullBack_bases {i : Slot} {n : Nat} {x : Line} {s : State} (st : StationNo) (tk : Ticket)
    (hx : (s.tab i).line? n = some x) (hs : x.state ≠ .voided) : KeepsBases s (pullBack i n x st tk s) := by
  unfold pullBack
  dsimp only
  let s1 := s.modifyStation st (Station.removeLine tk.number n)
  let s2 := if tk.emptiedBy n then recomputeRail st (s1.modifyTab i Tab.oneTicketLess) else s1
  have h1 : KeepsBases s s1 := keepsBases_of_tabs rfl
  have h2 : KeepsBases s s2 ∧ (s2.tab i).line? n = some x := by
    by_cases he : tk.emptiedBy n = true
    · simp only [s2, if_pos he]
      have hr := same_recomputeRail st (s1.modifyTab i Tab.oneTicketLess)
      refine ⟨(h1.modifyTab fun h => h.of_same rfl rfl).same hr, ?_⟩
      rw [State.tab_congr hr.tabs]
      exact (congrArg (fun t : Tab => t.line? n) (State.setTab_tab_self _ i _)).trans hx
    · simp only [s2, if_neg he]
      exact ⟨h1, hx⟩
  exact ((h2.1.modifyTab (Tab.Balanced.voidLine h2.2 hs)).trans (keepsBases_of_tabs (updateItem_tabs _ _ _))).touch

theorem voidLine_bases (l : Lane) (f : VoidLineFields) (s : State) : KeepsBases s (voidLine l f s).1 := by
  refine withTab_bases fun i s => ?_
  dsimp only
  split
  · exact .refl s
  split
  · exact .refl s
  split
  · exact .refl s
  rename_i x hx
  split
  · exact .refl s
  split
  · exact .refl s
  · exact .refl s
  · exact strikeEntered_bases hx (by simp [*])
  · have hfired : x.state ≠ .voided := by simp [*]
    split
    · exact pullBack_bases _ _ hx hfired
    · exact supervise_bases (applyVoidFired_bases hx hfired) (.refl s)
    · exact .refl s

theorem withOpenLine_bases {l : Lane} {i : Slot} {n : Nat} {ok : Bool} {s : State} {k : Line → Answer}
    (h : ∀ x, (s.tab i).line? n = some x → x.state ≠ .voided → KeepsBases s (k x).1) :
    KeepsBases s (withOpenLine l i n ok s k).1 := by
  unfold withOpenLine
  dsimp only
  split
  · exact .refl s
  split
  · exact .refl s
  split
  · exact .refl s
  split
  · exact .refl s
  split
  · exact .refl s
  split
  · exact .refl s
  · exact h _ ‹_› ‹_›

theorem compLine_bases (l : Lane) (f : CompLineFields) (s : State) : KeepsBases s (compLine l f s).1 :=
  withTab_bases fun i s => withOpenLine_bases fun x hx hs => by
    split
    · exact .refl s
    · exact supervise_bases (applyComp_bases hx hs) (.refl s)

theorem overridePrice_bases (l : Lane) (f : OverridePriceFields) (s : State) : KeepsBases s (overridePrice l f s).1 :=
  withTab_bases fun i s => withOpenLine_bases fun x hx hs => by
    dsimp only
    split
    · exact .refl s
    · exact supervise_bases (applyPrice_bases hx hs _) (.refl s)

/-- A tab changed in neither base nor lines. -/
theorem setTab_bases {s : State} {i : Slot} {u : Tab} (hb : u.base = (s.tab i).base) (hl : u.lines = (s.tab i).lines) :
    KeepsBases s (s.setTab i u) := keepsBases_setTab fun h => h.of_same hb hl

theorem bases_of_tabs_set {s t : State} {i : Slot} {u : Tab} (ht : t.tabs = s.tabs.set i u) (hb : u.base = (s.tab i).base)
    (hl : u.lines = (s.tab i).lines) : KeepsBases s t := (setTab_bases hb hl).trans (keepsBases_of_tabs (t := t) ht)

theorem follow_bases (l : Lane) (n : Nat) (s : State) : KeepsBases s (follow l n s).1 :=
  withTab_bases fun i s => by
    dsimp only
    split
    · exact .refl s
    split
    · exact .refl s
    · exact setTab_bases rfl rfl

theorem unfollow_bases (l : Lane) (n : Nat) (s : State) : KeepsBases s (unfollow l n s).1 :=
  withTab_bases fun _ _ => setTab_bases rfl rfl

theorem setService_bases (p : Port) (f : SetServiceFields) (s : State) : KeepsBases s (setService p f s).1 :=
  withTab_bases fun i s => by
    dsimp only
    split
    · exact .refl s
    split
    · exact .refl s
    split
    · exact .refl s
    split
    · exact .refl s
    · exact KeepsBases.answer (KeepsBases.touch (setTab_bases rfl rfl))

/-! ### Protection (R52 to R57) -/

theorem unlock_bases (l : Lane) (f : TabPinFields) (s : State) : KeepsBases s (unlock l f s).1 :=
  withTab_bases fun i s => by
    dsimp only
    split
    · exact .refl s
    split
    · exact .refl s
    split
    · exact setTab_bases rfl rfl
    split
    · exact .refl s
    split
    · exact setTab_bases rfl rfl
    split
    · exact KeepsBases.answer (KeepsBases.touch (setTab_bases rfl rfl))
    · exact setTab_bases rfl rfl

theorem lock_bases (l : Lane) (n : Nat) (s : State) : KeepsBases s (lock l n s).1 :=
  withTab_bases fun i s => by
    dsimp only
    split
    · exact .refl s
    · exact setTab_bases rfl rfl

theorem setPin_bases (l : Lane) (f : TabPinFields) (s : State) : KeepsBases s (setPin l f s).1 :=
  withTab_bases fun i s => by
    dsimp only
    split
    · exact .refl s
    split
    · exact .refl s
    split
    · exact .refl s
    split
    · exact .refl s
    · exact KeepsBases.answer (KeepsBases.touch (setTab_bases rfl rfl))

theorem clearLockout_bases (l : Lane) (f : ClearLockoutFields) (s : State) : KeepsBases s (clearLockout l f s).1 :=
  withTab_bases fun i s => by
    dsimp only
    split
    · exact .refl s
    split
    · exact .refl s
    split
    · exact .refl s
    · exact supervise_bases (applyPinClear_bases i s) (.refl s)

end Sys2Proof.Machine
end

section
/-! SUPPORT. What the blocks of settlement, stations and ports, and every command, leave of the running bases (R30). -/

namespace Sys2Proof.Machine

/-! ### The split engine and settlement (R132 to R166) -/

theorem freeTab_bases (i : Slot) (s : State) : KeepsBases s (freeTab i s) :=
  (keepsBases_setTab fun _ => Tab.balanced_blank).same (freeTab_same i s)

theorem releaseSplit_bases (i : Slot) (s : State) : KeepsBases s (releaseSplit i s) :=
  bases_of_tabs_set (releaseSplit_same i s).tabs rfl rfl

theorem loseOwner_bases (i : Slot) (s : State) : KeepsBases s (loseOwner i s) := by
  unfold loseOwner
  have h : KeepsBases s (s.modifyTab i fun t => { t with owner := none, claim := none }) := setTab_bases rfl rfl
  dsimp only
  split
  · exact h.touch
  · exact h.trans (releaseSplit_bases i _)

theorem closeTab_bases (i : Slot) (s : State) : KeepsBases s (closeTab i s) :=
  bases_of_tabs_set (closeTab_same i s).tabs rfl rfl

theorem split_bases (tag : Nat) (l : Lane) (f : SplitFields) (s : State) : KeepsBases s (split tag l f s).1 := by
  refine withTab_bases fun i s => ?_
  dsimp only
  split
  · exact .refl s
  split
  · exact .refl s
  split
  · exact .refl s
  split
  · exact .refl s
  split
  · exact .refl s
  split
  · exact .refl s
  split
  · exact .refl s
  · obtain ⟨t, hsame, -, htabs, -⟩ := acceptSplit_same l tag i _ _ s
    exact (bases_of_tabs_set htabs rfl rfl).same hsame

theorem settle_bases (i : Slot) (l : Lane) (c : Computation) (s : State) : KeepsBases s (settle i l c s) := by
  unfold settle
  dsimp only
  split
  · exact (closeTab_bases i s).same (same_answerSplit _ _ _)
  · refine KeepsBases.same (KeepsBases.touch ?_) (same_answerSplit _ _ _)
    exact setTab_bases rfl rfl

/-- A completion (R145, R151, R152) works on lines the tab keeps. -/
theorem complete_bases (s : State) : KeepsBases s (complete s) := by
  unfold complete
  split
  · exact .refl s
  rename_i c _
  split
  · exact keepsBases_of_tabs rfl
  rename_i i _
  have h : KeepsBases s (handOver i c s) := KeepsBases.trans (keepsBases_of_tabs rfl) (setTab_bases rfl rfl)
  dsimp only
  split
  · exact h.trans (settle_bases i _ c _)
  · exact h.trans (releaseSplit_bases i _)

theorem shareView_bases (p : Port) (f : TabPageFields) (s : State) : KeepsBases s (shareView p f s).1 :=
  withTab_bases fun i s => by
    dsimp only
    split
    · exact .refl s
    split <;> exact .refl s

theorem withOwnSplit_bases {l : Lane} {i : Slot} {s : State} {k : SplitRef → Answer} (h : ∀ r, KeepsBases s (k r).1) :
    KeepsBases s (withOwnSplit l i s k).1 := by
  unfold withOwnSplit
  dsimp only
  split
  · exact .refl s
  split
  · exact .refl s
  split
  · exact .refl s
  split
  · exact .refl s
  · exact h _

theorem takeTender_bases (i : Slot) (j : ShareNo) (index : Nat) (sh : Share) (d : Tender) (s : State) :
    KeepsBases s (takeTender i j index sh d s).1 := by
  have h : KeepsBases s (touch i (s.setShare j (.held (sh.addTender d)))) := KeepsBases.touch (keepsBases_of_tabs rfl)
  refine KeepsBases.answer ?_
  split
  · exact h.trans (closeTab_bases i _)
  · exact h

theorem tender_bases (l : Lane) (f : TenderFields) (s : State) : KeepsBases s (tender l f s).1 :=
  withTab_bases fun i s => withOwnSplit_bases fun _ => by
    split
    · split
      · exact .refl s
      split
      · exact .refl s
      dsimp only
      split
      · exact .refl s
      split
      · exact .refl s
      · exact .refl s
      · exact takeTender_bases _ _ _ _ _ s
    · exact .refl s

theorem undoTender_bases (l : Lane) (f : UndoTenderFields) (s : State) : KeepsBases s (undoTender l f s).1 :=
  withTab_bases fun i s => withOwnSplit_bases fun _ => by
    split
    · exact .refl s
    split
    · exact .refl s
    split
    · exact .refl s
    split
    · exact .refl s
    · exact supervise_bases (same_applyUndo i _ s).bases (.refl s)

theorem dropSplit_bases (l : Lane) (n : Nat) (s : State) : KeepsBases s (dropSplit l n s).1 :=
  withTab_bases fun i s => withOwnSplit_bases fun _ => by
    split
    · exact .refl s
    · exact releaseSplit_bases i s

theorem lapseClaim_bases (n : Nat) (s : State) : KeepsBases s (lapseClaim n s) := by
  unfold lapseClaim
  split
  · exact .refl s
  rename_i i _
  split
  · exact KeepsBases.trans (same_raiseLanes .claimLapsed (s.tab i).owner.toList s).bases (loseOwner_bases i _)
  · exact .refl s

theorem adopt_bases (l : Lane) (n : Nat) (s : State) : KeepsBases s (adopt l n s).1 := by
  refine withTab_bases fun i s => ?_
  dsimp only
  split
  · exact .refl s
  split
  · exact .refl s
  split
  · exact .refl s
  split
  · split <;> exact .refl s
  · exact KeepsBases.answer (KeepsBases.touch (setTab_bases rfl rfl))

theorem exportTab_bases (i : Slot) (s : State) : KeepsBases s (exportTab i s) := by
  let s1 := (freeShares (s.tab i).shareRefs s).modifyTab i Tab.unsplit
  have h : KeepsBases s s1 := KeepsBases.trans (keepsBases_of_tabs rfl) (setTab_bases rfl rfl)
  unfold exportTab
  dsimp only
  split
  · exact h.trans (freeTab_bases i s1)
  · exact KeepsBases.touch (h.trans (setTab_bases rfl rfl))

theorem takeClosed_bases (f : Unit) (s : State) : KeepsBases s (takeClosed f s).1 := by
  unfold takeClosed
  split
  · exact .refl s
  rename_i rest _
  have h : KeepsBases s { s with closeQueue := rest } := keepsBases_of_tabs rfl
  dsimp only
  split
  · exact h
  · exact h.trans (exportTab_bases _ _)

/-! ### Stations (R93 to R107) -/

theorem take_bases (st : StationNo) (f : Unit) (s : State) : KeepsBases s (take st f s).1 := by
  unfold take
  split
  · exact .refl s
  split
  · exact .refl s
  · exact KeepsBases.answer (modifyStation_rail_same st _ s).bases

/-- The tab's side of a BUMP (R97): a FIRED line counts for the same when it is SERVED. -/
theorem serveTab_bases (i : Slot) (t : Ticket) (s : State) : KeepsBases s (serveTab i t s) := by
  have h := (keepsBases_modifyTab (s := s) (i := i) (f := fun tab => (tab.changeLines t.lines serveLine).oneTicketLess)
    fun hb => (hb.changeLines t.lines serveLine_due).of_same rfl rfl).touch (i := i)
  unfold serveTab
  dsimp only
  split
  · exact h.trans (freeTab_bases i _)
  · exact h

theorem bump_bases (st : StationNo) (f : Unit) (s : State) : KeepsBases s (bump st f s).1 := by
  unfold bump
  split
  · exact .refl s
  rename_i t _
  have h : KeepsBases s (s.modifyStation st (Station.bumpTicket t)) := keepsBases_of_tabs rfl
  refine KeepsBases.answer (h.trans ?_)
  split
  · exact serveTab_bases _ t _
  · exact .refl _

theorem resume_bases (st : StationNo) (f : Unit) (s : State) : KeepsBases s (resume st f s).1 := by
  unfold resume
  split
  · exact keepsBases_of_tabs rfl
  · exact .refl s

theorem unserveTab_bases (i : Slot) (t : Ticket) (s : State) : KeepsBases s (unserveTab i t s) :=
  KeepsBases.touch (keepsBases_modifyTab fun h => (h.changeLines t.lines unserveLine_due).of_same rfl rfl)

theorem recallTicket_bases (st : StationNo) (n : Nat) (s : State) : KeepsBases s (recallTicket st n s).1 := by
  unfold recallTicket
  split
  · exact .refl s
  split
  · exact .refl s
  rename_i t _
  split
  · exact .refl s
  split
  · exact .refl s
  have h : KeepsBases s (s.modifyStation st (Station.recallTicket t)) := keepsBases_of_tabs rfl
  refine KeepsBases.answer (h.trans ?_)
  split
  · exact unserveTab_bases _ t _
  · exact .refl _

theorem holdLow_bases (st : StationNo) (code : Nat) (s : State) : KeepsBases s (holdLow st code s).1 := by
  unfold holdLow
  split
  · exact .refl s
  · exact KeepsBases.answer (modifyStation_rail_same st _ s).bases

theorem setWorking_bases (asked : StationState) (st : StationNo) (s : State) : KeepsBases s (setWorking asked st s).1 := by
  unfold setWorking
  split
  · exact .refl s
  split
  · exact .refl s
  · exact KeepsBases.answer (modifyStation_rail_same st _ s).bases

theorem pauseOrOpen_bases (asked : StationState) (p : Port) (f : Option Nat) (s : State) :
    KeepsBases s (pauseOrOpen asked p f s).1 := by
  unfold pauseOrOpen
  split
  · split
    · exact setWorking_bases asked _ s
    · exact .refl s
  · split
    · exact setWorking_bases asked _ s
    · exact .refl s

theorem stationView_bases (st : StationNo) (start : Nat) (s : State) : KeepsBases s (stationView st start s).1 := by
  unfold stationView
  split <;> exact .refl s

theorem reconfigure_bases (st : StationNo) (state : StationState) (a : Option StationNo) (threshold : Nat) (status : Status)
    (s : State) : KeepsBases s (reconfigure st state a threshold status s).1 :=
  KeepsBases.answer (modifyStation_rail_same st _ s).bases

theorem closeStation_bases (st : StationNo) (a : Option StationNo) (threshold : Nat) (status : Status) (s : State) :
    KeepsBases s (closeStation st a threshold status s).1 := by
  unfold closeStation
  dsimp only
  split
  · exact .refl s
  split
  · exact reconfigure_bases st _ a threshold status s
  split
  · exact .refl s
  rename_i b
  split
  · exact .refl s
  split
  · exact .refl s
  · have h : SameBooks s (moveQueue st b (configure st .closed (some b) threshold s)) := ⟨rfl, rfl, rfl, rfl⟩
    exact KeepsBases.answer (h.trans (same_recomputeRails [st, b] _)).bases

theorem setStation_bases (f : SetStationFields) (s : State) : KeepsBases s (setStation f s).1 := by
  unfold setStation
  split
  · split
    · exact .refl s
    dsimp only
    split
    · exact closeStation_bases _ _ _ _ s
    · exact reconfigure_bases _ _ _ _ _ s
  · exact .refl s

/-! ### Ports (R167 to R185) -/

theorem disown_bases (l : Lane) (s : State) (i : Slot) : KeepsBases s (disown l s i) := by
  unfold disown
  split
  · split
    · exact loseOwner_bases i s
    · exact KeepsBases.touch (setTab_bases rfl rfl)
  · exact .refl s

theorem disownAll_bases (l : Lane) (is : List Slot) (s : State) : KeepsBases s (is.foldl (disown l) s) := by
  induction is generalizing s with
  | nil => exact .refl s
  | cons i is ih => exact (disown_bases l s i).trans (ih _)

theorem resetPort_bases (l : Lane) (s : State) : KeepsBases s (resetPort l s) := by
  have h : KeepsBases s (leaveTabs l (unbind l s)) := keepsBases_tabs _ rfl (fun _ => rfl) fun _ => rfl
  replace h := h.trans (disownAll_bases l (List.finRange 128) _)
  unfold resetPort
  dsimp only
  generalize (List.finRange 128).foldl (disown l) (leaveTabs l (unbind l s)) = t at h ⊢
  split
  · exact (h.same (same_returnToken t)).trans (keepsBases_of_tabs rfl)
  · exact h.trans (keepsBases_of_tabs rfl)

theorem changeStanding_bases (l : Lane) (f : SetPortFields) (r : Role) (st : Option StationNo) (s : State) :
    KeepsBases s (changeStanding l f r st s).2 := by
  have h := resetPort_bases l s
  unfold changeStanding
  generalize resetPort l s = t at h ⊢
  have hf := same_applyFlags l f r t
  dsimp only
  split
  · exact h.same hf
  split
  · exact h
  · exact h.same (hf.trans (same_bindStation l _ _))

theorem keepStanding_bases (l : Lane) (f : SetPortFields) (r : Role) (s : State) : KeepsBases s (keepStanding l f r s) := by
  have hf := same_applyFlags l f r s
  unfold keepStanding
  dsimp only
  split
  · exact (hf.trans ((same_returnToken _).trans (same_raiseLanes _ [l] _))).bases
  · exact hf.bases

theorem setPortRequest_bases (f : SetPortFields) (s : State) : KeepsBases s (setPortRequest f s).1 := by
  unfold setPortRequest
  split
  · split
    · exact KeepsBases.answer (changeStanding_bases _ f _ _ s)
    · exact KeepsBases.answer (keepStanding_bases _ f _ s)
  · exact .refl s

theorem events_tabs (p : Port) (f : Unit) (s : State) : (events p f s).1.tabs = s.tabs := by cases p <;> rfl

theorem setMask_tabs (p : Port) (mask : Nat) (s : State) : (setMask p mask s).1.tabs = s.tabs := by cases p <;> rfl

/-! ### Every command -/

/-- An outcome after which every base still agrees with its lines. -/
def EndsBalanced (s : State) (o : Host.Outcome State Fault Refusal) : Prop := ∀ t, o = .next t → KeepsBases s t

theorem endsBalanced_next {s t : State} (h : KeepsBases s t) : EndsBalanced s (.next t) := fun _ e => by
  cases e
  exact h

theorem receive_bases {α : Type} {k : Kind} {p : Port} {n tag : Nat} {body : Body α} {fresh : α → State → Option Lane}
    {block : α → State → Answer} {s : State} (h : ∀ f u, KeepsBases u (block f u).1) :
    EndsBalanced s (.next (receive p n s (handle k p tag body fresh block))) := by
  refine endsBalanced_next ?_
  rcases receive_handle_cases k p n tag body fresh block s with hs | ⟨f, u, hu, hb⟩
  · exact (same_samePart hs).bases
  · exact ((same_samePart hu).bases.trans (h f u)).same (same_samePart hb)

theorem serve_bases {α : Type} {k : Kind} {c : Codec α} {p : Port} {tag : Nat} {body : Body α} {block : α → State → Answer}
    {s : State} (h : ∀ f u, KeepsBases u (block f u).1) : EndsBalanced s (serve k c p tag body block s) := receive_bases h

/-- A request whose block changes no tab. -/
theorem serve_sameTabs {α : Type} {k : Kind} {c : Codec α} {p : Port} {tag : Nat} {body : Body α} {block : α → State → Answer}
    {s : State} (h : ∀ f u, (block f u).1.tabs = u.tabs) : EndsBalanced s (serve k c p tag body block s) :=
  serve_bases fun f u => keepsBases_of_tabs (h f u)

theorem serveLane_bases {α : Type} {k : Kind} {c : Codec α} {p : Port} {tag : Nat} {body : Body α}
    {block : Lane → α → State → Answer} {s : State} (h : ∀ l f u, KeepsBases u (block l f u).1) :
    EndsBalanced s (serveLane k c p tag body block s) :=
  serve_bases fun f u => by
    split
    · exact h _ f u
    · exact .refl u

theorem serveStation_bases {α : Type} {k : Kind} {c : Codec α} {p : Port} {tag : Nat} {body : Body α}
    {block : StationNo → α → State → Answer} {s : State} (h : ∀ st f u, KeepsBases u (block st f u).1) :
    EndsBalanced s (serveStation k c p tag body block s) :=
  serveLane_bases fun l f u => by
    split
    · exact h _ f u
    · exact .refl u

theorem happen_bases {effect : State → State} {s : State} (h : KeepsBases s (effect s)) : EndsBalanced s (happen effect s) := by
  intro t ht
  obtain ⟨t', ht', hc⟩ := happen_cases effect s
  cases ht.symm.trans ht'
  rcases hc with hc | hc
  · exact (same_samePart hc).bases
  · exact h.same (same_samePart hc)

/-- A step that the RESET pin holds back and that changes no tab. -/
theorem unheld_sameTabs {s t : State} (h : t.tabs = s.tabs) : EndsBalanced s (.next (if s.resetPin then s else t)) := by
  refine endsBalanced_next (keepsBases_of_tabs ?_)
  split
  · rfl
  · exact h

theorem dropWhen_sameTabs (occurs : State → Bool) (p : Port) (n : Nat) (s : State) : EndsBalanced s (dropWhen occurs p n s) := by
  refine unheld_sameTabs ?_
  split
  · exact ((same_clockFrame p n s).trans (same_dropFrame p _)).tabs
  · rfl

theorem beginFrame_tabs (b : StartByte) (s : State) : (beginFrame b s).tabs = s.tabs := by
  unfold beginFrame
  split
  · refine Eq.trans ?_ (same_clockFrame (startPort b) (startTransfers b) s).tabs
    cases startPort b <;> rfl
  · rfl

theorem drawn_tabs (n : Nat) (s : State) : (dropFrame .office (clockReply n { s with draws := s.draws + 1 })).tabs = s.tabs :=
  ((same_clockReply n { s with draws := s.draws + 1 }).trans (same_dropFrame .office _)).tabs

theorem discardFrame_tabs (s : State) : (discardFrame s).tabs = s.tabs := by
  unfold discardFrame
  split
  · rfl
  · exact drawn_tabs _ s

theorem overrun_tabs (s : State) : (overrun s).tabs = s.tabs := by
  unfold overrun
  split
  · rfl
  · exact drawn_tabs _ s

theorem execUnknownKind_bases (p : Port) (tag : Nat) (k : KindAndBody) (s : State) : EndsBalanced s (execUnknownKind p tag k s) := by
  refine endsBalanced_next ?_
  split
  · unfold receive
    split
    · exact .refl s
    · dsimp only
      have hc := same_clockFrame p (frameSize (2 + k.body.length)) s
      split
      · exact (hc.trans (same_dropFrame p _)).bases
      · exact (hc.trans ((same_samePart (samePart_huntAgain p _)).trans (same_samePart (samePart_sendReply p _ _ _ _)))).bases
  · exact .refl s

/-- No command breaks a running base (R30). -/
theorem exec_bases (c : Instr) (s : State) : EndsBalanced s (exec c s) := by
  cases c with
  | powerOn => exact endsBalanced_next (keepsBases_reset rfl)
  | resetPin => exact endsBalanced_next (keepsBases_reset rfl)
  | reset p tag body => exact serve_bases fun _ _ => keepsBases_reset rfl
  | secondTick =>
    refine endsBalanced_next ?_
    split
    · exact .refl s
    · exact keepsBases_tabs _ rfl (fun _ => rfl) fun _ => rfl
  | lateExpiry n => exact happen_bases (same_expireLate n s).bases
  | claimLapse n => exact happen_bases (lapseClaim_bases n s)
  | frameTimeout l => exact dropWhen_sameTabs _ _ _ s
  | lengthError p n => exact dropWhen_sameTabs (fun _ => !lengthOk n) p 2 s
  | crcMismatch p bytes crc => exact dropWhen_sameTabs (fun _ => countedBytes bytes && crc16 bytes ≠ crc) p _ s
  | csDeasserted => exact unheld_sameTabs (discardFrame_tabs s)
  | badTagOrKind p tag k => exact dropWhen_sameTabs (fun _ => tag = 0 || 0x80 ≤ k.kind) p _ s
  | unknownKind p tag k => exact execUnknownKind_bases p tag k s
  | transmitListFull l => exact dropWhen_sameTabs _ _ _ s
  | officeRequestOverrun => exact unheld_sameTabs (overrun_tabs s)
  | frameSent l => exact unheld_sameTabs rfl
  | replyClockedOut => exact unheld_sameTabs rfl
  | openTab p tag body => exact serveLane_bases openTab_bases
  | tabView p tag body => exact serve_bases (tabView_bases p)
  | addLine p tag body => exact serveLane_bases addLine_bases
  | voidLine p tag body => exact serveLane_bases voidLine_bases
  | compLine p tag body => exact serveLane_bases compLine_bases
  | overridePrice p tag body => exact serveLane_bases overridePrice_bases
  | follow p tag body => exact serveLane_bases follow_bases
  | unfollow p tag body => exact serveLane_bases unfollow_bases
  | setService p tag body => exact serve_bases (setService_bases p)
  | unlock p tag body => exact serveLane_bases unlock_bases
  | lock p tag body => exact serveLane_bases lock_bases
  | setPin p tag body => exact serveLane_bases setPin_bases
  | clearLockout p tag body => exact serveLane_bases clearLockout_bases
  | fire p tag body => exact serveLane_bases fire_bases
  | rail p tag body => exact serveStation_bases fun _ _ u => .refl u
  | take p tag body => exact serveStation_bases take_bases
  | bump p tag body => exact serveStation_bases bump_bases
  | resume p tag body => exact serveStation_bases resume_bases
  | recallTicket p tag body => exact serveStation_bases recallTicket_bases
  | holdLow p tag body => exact serveStation_bases holdLow_bases
  | pause p tag body => exact serve_bases (pauseOrOpen_bases .paused p)
  | openStation p tag body => exact serve_bases (pauseOrOpen_bases .opened p)
  | stationView p tag body => exact serveStation_bases stationView_bases
  | setStation p tag body => exact serve_bases setStation_bases
  | passSupervisor p tag body => exact serve_sameTabs (passSupervisor_tabs p)
  | reclaim p tag body => exact serve_sameTabs reclaim_tabs
  | approvalList p tag body => exact serve_sameTabs (approvalList_tabs p)
  | approve p tag body => exact serve_bases (approve_bases p)
  | deny p tag body => exact serve_bases (deny_bases p)
  | withdraw p tag body => exact serveLane_bases withdraw_bases
  | results p tag body => exact serveLane_bases fun _ _ _ => keepsBases_of_tabs rfl
  | split p tag body => exact serveLane_bases (split_bases tag)
  | splitBegin => exact happen_bases (same_takeUp s).bases
  | splitCompletion => exact happen_bases (complete_bases s)
  | shareView p tag body => exact serve_bases (shareView_bases p)
  | tender p tag body => exact serveLane_bases tender_bases
  | undoTender p tag body => exact serveLane_bases undoTender_bases
  | dropSplit p tag body => exact serveLane_bases dropSplit_bases
  | adopt p tag body => exact serveLane_bases adopt_bases
  | takeClosed p tag body => exact serve_bases takeClosed_bases
  | loadItem p tag body => exact serve_sameTabs loadItem_tabs
  | withdrawItem p tag body => exact serve_sameTabs withdrawItem_tabs
  | loadModifier p tag body => exact serve_sameTabs loadModifier_tabs
  | setTaxRate p tag body => exact serve_sameTabs setTaxRate_tabs
  | setGroupPriority p tag body => exact serve_bases setGroupPriority_bases
  | setCount p tag body => exact serve_sameTabs (setCount_tabs p)
  | availability p tag body => exact serve_sameTabs availability_tabs
  | setPort p tag body => exact receive_bases setPortRequest_bases
  | events p tag body => exact serve_sameTabs (events_tabs p)
  | setMask p tag body => exact serve_sameTabs (setMask_tabs p)
  | setClock p tag body => exact serve_sameTabs fun _ _ => rfl
  | status p tag body => exact serve_sameTabs fun _ _ => rfl
  | startByteReceived b => exact unheld_sameTabs (beginFrame_tabs b s)
  | resetPinAsserted => exact endsBalanced_next (keepsBases_reset rfl)

/-- Settles O54: each command keeps every running base, by the rules of its block. -/
theorem runningBasesAreKept : Obligations.RunningBasesAreKept :=
  kept_of_exec (fun _ _ => id) fun c s t hs ht i => exec_bases c s t ht i (hs i)

end Sys2Proof.Machine
end

section
/-! SUPPORT. Requests on one line that need the supervisor: COMP_LINE and OVERRIDE_PRICE (R42 to R44, R117, R118, R122, R123). -/

namespace Sys2Proof.Machine

/-! ### The three ways of a request that needs the supervisor (R117) -/

section
variable {l : Lane} {i : Slot} {ask : Ask} {reason : Nat} {s : State} {applied full : Answer} {queuedBody : Nat → List Field}

theorem supervise_holder (h : s.token = .lane l) : supervise l i ask reason s applied full queuedBody = applied := by
  simp [supervise, State.holds, h]

theorem supervise_full (h : s.token ≠ .lane l) (hf : 16 ≤ s.approvals.length) :
    supervise l i ask reason s applied full queuedBody = full := by
  simp [supervise, State.holds, h, Config.approvalSize, hf]

theorem supervise_room (h : s.token ≠ .lane l) (hr : s.approvals.length < 16) :
    supervise l i ask reason s applied full queuedBody
      = answer (queueEntry l i ask reason s) .queued (queuedBody s.nextApproval) := by
  simp [supervise, State.holds, h, Config.approvalSize, Nat.not_le.mpr hr]

end

/-! ### An entry joins the queue (R117, R118) -/

theorem nextApproval_eq {s : State} {number : Nat} (h1 : 1 ≤ s.approvalCounter) (h2 : s.approvalCounter ≤ 255)
    (h : FirstFrom 255 s.numberAsked s.approvalCounter number) : s.nextApproval = number := by
  have hused : (fun m => (s.approvals.any fun e => decide (e.number = m)) = true) = s.numberAsked := by
    funext m
    simp [State.numberAsked]
  exact firstUnused_first h1 h2 (hused ▸ h)

/-- A state with a new entry for a line of the tab in a slot: the entry at the end of the queue, the counter past its number, and
the line marked with it (R117, R118). -/
def State.withLineEntry (l : Lane) (i : Slot) (n : Nat) (x : Line) (ask : Ask) (reason number : Nat) (s : State) : State :=
  { s with
    approvals := s.approvals ++
      [{ number := number, ask := ask, requester := l, tab := (s.tab i).number, reason := reason, queuedAt := s.clock }]
    approvalCounter := nextNumber 255 number
    tabs := s.tabs.set i
      { (s.tab i).named (.lane l) with lines := (s.tab i).lines.set (n - 1) { x with pending := some number } } }

theorem Tab.markLine_eq {t : Tab} {n : Nat} {x : Line} (h : t.line? n = some x) (pending : Option Nat) :
    t.markLine n pending = t.setLine n { x with pending := pending } := by
  rw [Tab.markLine, h]

/-- What queueing leaves of a till's request on a line: `State.withLineEntry`, TAB_CHANGED to the followers, APPROVAL_WAITING to the
holder (R117). -/
theorem queueEntry_line {l : Lane} {i : Slot} {n : Nat} {x : Line} {ask : Ask} {s : State} (reason : Nat) {number : Nat}
    (hask : askLine ask = some n) (hx : (s.tab i).line? n = some x) (hn : s.nextApproval = number) :
    queueEntry l i ask reason (s.naming l i)
      = (huntAgain (.lane l) (s.withLineEntry l i n x ask reason number)).raised
          (both (toLanes .tabChanged (s.tab i).followers) (toPort .approvalWaiting s.token)) := by
  have hx' : ((s.tab i).named (.lane l)).line? n = some x := (Tab.named_line? _ _ _).trans hx
  have hn' : (s.naming l i).nextApproval = number := hn
  let e : Entry :=
    { number := number, ask := ask, requester := l, tab := ((s.naming l i).tab i).number, reason := reason
      queuedAt := (s.naming l i).clock }
  let s1 : State := { s with approvals := s.approvals ++ [e], approvalCounter := nextNumber Config.maxApprovalNumber number }
  let u : Tab := ((s.tab i).named (.lane l)).setLine n { x with pending := some number }
  have htab : (s1.naming l i).tab i = (s.tab i).named (.lane l) := naming_tab l i s1
  calc queueEntry l i ask reason (s.naming l i)
      = raisePort .approvalWaiting s.token
          (touch i ((s1.naming l i).modifyTab i fun t => t.markLine n (some number))) := by
        unfold queueEntry
        simp only [hask, hn']
        rfl
    _ = (huntAgain (.lane l) (s1.setTab i u)).raised
          (both (toLanes .tabChanged u.followers) (toPort .approvalWaiting s.token)) := by
        rw [State.modifyTab, htab, Tab.markLine_eq hx', naming_setTab, touch_eq, raisePort_eq, raised_raised, huntAgain_tab,
          State.setTab_tab_self]
    _ = _ := by
        have hu : u.followers = (s.tab i).followers := Tab.named_followers _ _
        have hs : s1.setTab i u = s.withLineEntry l i n x ask reason number := by
          simp only [s1, u, e, State.withLineEntry, State.setTab, Tab.setLine, naming_tab, Tab.named_number, Tab.named_lines]
          rfl
        rw [hu, hs]

/-! ### A line found by COMP_LINE or OVERRIDE_PRICE (R42) -/

theorem withOpenLine_found {l : Lane} {tag : Nat} {i : Slot} {n : Nat} {x : Line} {s : State} {k : Line → Answer}
    (h : tillReady l tag s = true) (hpin : (s.tab i).pin = none ∨ l ∈ (s.tab i).unlocked) (hopen : (s.tab i).state = .opened)
    (hx : (s.tab i).line? n = some x) (hp : x.pending = none) (hs : x.state ≠ .voided) :
    withOpenLine l i n true (s.naming l i) k = k x := by
  have hunlocked := (naming_unlocked h i).mpr hpin
  simp only [withOpenLine, naming_tab, hunlocked, Tab.named_state, hopen, Tab.named_line?, hx, hp, hs, Bool.not_true,
    Bool.false_eq_true, if_false, ne_eq, not_true_eq_false, Option.isSome_none]

/-- One tab replaced under a till's request, with TAB_CHANGED to its followers. -/
theorem touch_naming_modifyTab {l : Lane} {i : Slot} {s : State} {f : Tab → Tab} {u : Tab}
    (hu : f ((s.tab i).named (.lane l)) = u) (hf : u.followers = (s.tab i).followers) :
    touch i ((s.naming l i).modifyTab i f)
      = (huntAgain (.lane l) (s.setTab i u)).raised (toLanes .tabChanged (s.tab i).followers) := by
  rw [State.modifyTab, naming_tab, hu, naming_setTab, touch_eq, huntAgain_tab, State.setTab_tab_self, hf]

/-! ### COMP_LINE (R42, R44, R122) -/

theorem Tab.compLine_named {p : Port} {t : Tab} {n : Nat} {x : Line} (h : x.comped = false) :
    (t.named p).compLine n x
      = { t.named p with
          base := t.base - x.price * x.quantity
          lines := t.lines.set (n - 1) { x with comped := true } } := by
  simp [Tab.compLine, Tab.setLine, Line.amount, h]

theorem applyComp_naming {l : Lane} {i : Slot} {n : Nat} {x : Line} {s : State} (hx : (s.tab i).line? n = some x)
    (hc : x.comped = false) :
    applyComp i n (s.naming l i)
      = (huntAgain (.lane l) (s.setTab i (((s.tab i).named (.lane l)).compLine n x))).raised
          (toLanes .tabChanged (s.tab i).followers) := by
  simp only [applyComp, naming_tab, Tab.named_line?, hx, hc, Bool.false_eq_true, if_false]
  exact touch_naming_modifyTab rfl (Tab.named_followers _ _)

/-- Settles O27: the holder's COMP_LINE meets no check and is applied. -/
theorem compLineApplied : Obligations.CompLineApplied := by
  intro l tag f i x s hready hi hpin hopen h1 hget hreason hp hs hcomped htoken t
  have hx : (s.tab i).line? f.line = some x := line?_eq.mpr ⟨h1, hget⟩
  refine serve_tab (t := s.setTab i _) hready rfl hi (fun _ => rfl) ?_ rfl rfl
  have happly := applyComp_naming (l := l) hx hcomped
  rw [Tab.compLine_named hcomped] at happly
  simp only [decide_eq_true (show f.reason ≤ Config.maxReason from hreason)]
  rw [withOpenLine_found hready hpin hopen hx hp hs]
  simp only [hcomped, Bool.false_eq_true, if_false]
  rw [supervise_holder (s := s.naming l i) htoken, happly]

/-! ### OVERRIDE_PRICE (R43, R44, R123) -/

theorem Tab.newBase_named (p : Port) (t : Tab) (x : Line) (price : Nat) :
    (t.named p).newBase x price = if x.comped then t.base else t.base - x.price * x.quantity + price * x.quantity := by
  unfold Tab.newBase Line.amount
  split <;> simp [*]

theorem Tab.priceLine_named (p : Port) (t : Tab) (n : Nat) (x : Line) (price : Nat) :
    (t.named p).priceLine n x price
      = { t.named p with
          base := if x.comped then t.base else t.base - x.price * x.quantity + price * x.quantity
          lines := t.lines.set (n - 1) { x with price := price } } := by
  rw [Tab.priceLine, Tab.newBase_named, Tab.setLine, Tab.named_lines]

theorem applyPrice_naming {l : Lane} {i : Slot} {n : Nat} {x : Line} {s : State} (hx : (s.tab i).line? n = some x)
    (price : Nat) :
    applyPrice i n price (s.naming l i)
      = (huntAgain (.lane l) (s.setTab i (((s.tab i).named (.lane l)).priceLine n x price))).raised
          (toLanes .tabChanged (s.tab i).followers) := by
  simp only [applyPrice, naming_tab, Tab.named_line?, hx]
  exact touch_naming_modifyTab rfl (Tab.named_followers _ _)

/-- A price is brought into range exactly when it is above the range (R43). -/
theorem min_maxPrice_ne (asked : Nat) : min asked Config.maxPrice ≠ asked ↔ 99999 < asked := by
  unfold Config.maxPrice
  omega

/-- An OVERRIDE_PRICE that passes its checks goes the ways of R117. -/
theorem overridePrice_passes {l : Lane} {tag : Nat} {f : OverridePriceFields} {asked : Nat} {i : Slot} {x : Line} {s t : State}
    {status : Status} {body : List Field} {r : Raised} (h : tillReady l tag s = true) (hi : s.findTab f.tab = some i)
    (hpin : (s.tab i).pin = none ∨ l ∈ (s.tab i).unlocked) (hopen : (s.tab i).state = .opened)
    (hx : (s.tab i).line? f.line = some x) (hreason : f.reason ≤ 15) (hp : x.pending = none) (hs : x.state ≠ .voided)
    (hprice : f.price = some asked)
    (hbase : x.comped = true ∨ ((s.tab i).named (.lane l)).newBase x (min asked 99999) ≤ 50000000)
    (hv : supervise l i (.price f.line (min asked 99999)) f.reason (s.naming l i)
        (answer (applyPrice i f.line (min asked 99999) (s.naming l i)) (if 99999 < asked then .clamped else .ok))
        (answer (s.naming l i) .approvalsFull)
        (fun n => [Field.small n, Field.amount (min asked 99999), Field.flag (decide (99999 < asked))])
      = answer ((huntAgain (.lane l) t).raised r) status body)
    (hports : t.ports = s.ports) (ho : t.officeReceiver = s.officeReceiver) :
    exec (.overridePrice (.lane l) tag (.fields f)) s = .next (t.answered (.lane l) tag 0x06 status body r) := by
  refine serve_tab h rfl hi (fun _ => rfl) (hv ▸ ?_) hports ho
  have hlimit : ¬(Config.maxBase < ((s.tab i).named (.lane l)).newBase x (min asked Config.maxPrice) ∧ x.comped = false) := by
    rintro ⟨hlt, hc⟩
    rcases hbase with hb | hb
    · exact absurd hb (by simp [hc])
    · exact Nat.not_lt.mpr hb hlt
  have hok : (decide (f.reason ≤ Config.maxReason) && f.price.isSome) = true := by
    simp [hprice, show f.reason ≤ Config.maxReason from hreason]
  simp only [hok]
  rw [withOpenLine_found h hpin hopen hx hp hs]
  simp only [hprice, Option.getD_some, naming_tab, hlimit, if_false, min_maxPrice_ne]
  rfl

/-- Settles O28: past its checks, applied for the holder and queued for another till. -/
theorem overridePriceAppliedOrQueued : Obligations.OverridePriceAppliedOrQueued := by
  intro l tag f asked i x s hready hi hpin hopen h1 hget hreason hp hs hprice t price base hlimit
  have hx : (s.tab i).line? f.line = some x := line?_eq.mpr ⟨h1, hget⟩
  have hlimit' : x.comped = true ∨ ((s.tab i).named (.lane l)).newBase x price ≤ 50000000 := by
    rw [Tab.newBase_named]
    exact hlimit
  refine ⟨fun htoken => ?_, fun number htoken hroom hc1 hc2 hfirst => ?_⟩
  · refine overridePrice_passes (t := s.setTab i _) hready hi hpin hopen hx hreason hp hs hprice hlimit' ?_ rfl rfl
    have happly := applyPrice_naming (l := l) hx price
    rw [Tab.priceLine_named] at happly
    rw [supervise_holder (s := s.naming l i) htoken, happly]
  · have hn := nextApproval_eq hc1 hc2 hfirst
    have hn' : (s.naming l i).nextApproval = number := hn
    refine overridePrice_passes (t := s.withLineEntry l i f.line x (.price f.line price) f.reason number) hready hi hpin hopen hx
      hreason hp hs hprice hlimit' ?_ rfl rfl
    rw [supervise_room (s := s.naming l i) htoken hroom, queueEntry_line f.reason rfl hx hn, hn']

end Sys2Proof.Machine
end

section
/-! SUPPORT. VOID_LINE of a line whose ticket is in work or set aside: queued, refused, or applied with the kill (R39, R40, R78, R81,
R82, R108, R117, R118). -/

namespace Sys2Proof.Machine

/-! ### A line leaves a ticket in work or set aside (R78, R82) -/

theorem Station.removeLine_shortened {n k : Nat} {x : Station} (hq : ∀ y ∈ x.queue, y.number ≠ n)
    (hh : ∀ y ∈ x.inWork.toList ++ x.stack, y.number = n → ∃ other ∈ y.lines, other ≠ k) :
    x.removeLine n k = x.shortened n k := by
  let g : Ticket → Ticket := fun y => if y.number = n then { y with lines := y.lines.filter fun j => j ≠ k } else y
  have hqueue : x.queue.map g = x.queue := (List.map_congr_left fun y hy => if_neg (hq y hy)).trans (List.map_id _)
  have hwork : (removeFrom n k x.inWork.toList).head? = x.inWork.map g := by
    rw [removeFrom_shortened fun y hy => hh y (List.mem_append_left _ hy)]
    cases x.inWork <;> rfl
  rw [Station.removeLine, Station.shortened, Station.mapLive, removeFrom_absent hq, hwork,
    removeFrom_shortened fun y hy => hh y (List.mem_append_right _ hy)]
  change _ = { x with queue := x.queue.map g, inWork := _, stack := _ }
  rw [hqueue]

theorem Station.removeLine_killed {n k : Nat} {x : Station} (hq : ∀ y ∈ x.queue, y.number ≠ n)
    (hh : ∀ y ∈ x.inWork.toList ++ x.stack, y.number = n → ∀ other ∈ y.lines, other = k) :
    x.removeLine n k = x.killed n := by
  have hwork : (removeFrom n k x.inWork.toList).head? = x.inWork.filter fun y => y.number ≠ n := by
    rw [removeFrom_emptied fun y hy => hh y (List.mem_append_left _ hy)]
    cases x.inWork with
    | none => rfl
    | some y => by_cases hy : y.number = n <;> simp [hy, Option.filter]
  rw [Station.removeLine, Station.killed, removeFrom_absent hq, hwork,
    removeFrom_emptied fun y hy => hh y (List.mem_append_right _ hy)]

theorem Tab.struck_named {p : Port} {t : Tab} {n : Nat} {x : Line} (hp : x.pending = none) :
    (t.named p).voidLine n x = (t.named p).struck n x := by
  have hx : ({ x with state := .voided, ticket := none } : Line) = { x with state := .voided, ticket := none, pending := none } := by
    rw [← hp]
  rw [Tab.voidLine, Tab.setLine, hx]
  rfl

/-! ### A VOID_FIRED applied (R81, R82, R108) -/

section
variable {l : Lane} {i : Slot} {n : Nat} {x : Line} {st : StationNo} {place : TicketState} {tk : Ticket} {s : State} {y : Station}
  {u : Tab}

theorem naming_setStation_setTab :
    ((s.setStation st y).naming l i).setTab i u = huntAgain (.lane l) ((s.setStation st y).setTab i u) :=
  naming_setTab l i (s.setStation st y) u

/-- A VOID_FIRED of a line on a ticket that holds others (R78, R81). -/
theorem applyVoidFired_shortened (hx : (s.tab i).line? n = some x) (htk : s.ticketOf x = some (st, place, tk))
    (he : ¬tk.emptiedBy n = true) (hy : (s.station st).removeLine tk.number n = y)
    (hu : ((s.tab i).named (.lane l)).voidLine n x = u) :
    applyVoidFired i n (s.naming l i)
      = (huntAgain (.lane l) ((s.setStation st y).setTab i u)).raised (toLanes .tabChanged (s.tab i).followers) := by
  have htk' : (s.naming l i).ticketOf x = some (st, place, tk) := htk
  have hf : u.followers = (s.tab i).followers := hu ▸ Tab.named_followers _ _
  simp only [applyVoidFired, naming_tab, Tab.named_line?, hx, htk', if_neg he, naming_modifyStation, hy]
  exact touch_naming_modifyTab (s := s.setStation st y) hu hf

/-- A VOID_FIRED that empties its ticket (R82, R108): TICKET_KILLED besides. -/
theorem applyVoidFired_emptied (hx : (s.tab i).line? n = some x) (htk : s.ticketOf x = some (st, place, tk))
    (he : tk.emptiedBy n = true) (hy : (s.station st).removeLine tk.number n = y)
    (hu : ((s.tab i).named (.lane l)).oneTicketLess.voidLine n x = u) :
    applyVoidFired i n (s.naming l i)
      = (huntAgain (.lane l) ((s.setStation st y).setTab i u)).raised
          (both (toLanes .tabChanged (s.tab i).followers) (toLanes .ticketKilled (s.station st).port.toList)) := by
  have htk' : (s.naming l i).ticketOf x = some (st, place, tk) := htk
  have hf : u.followers = (s.tab i).followers := hu ▸ Tab.named_followers _ _
  have hport : (((s.setStation st y).naming l i).station st).port = (s.station st).port :=
    (congrArg Station.port (State.setStation_station_self s st y)).trans (hy ▸ rfl)
  have htab : ((s.setStation st y).naming l i).tab i = (s.tab i).named (.lane l) := naming_tab l i _
  simp only [applyVoidFired, naming_tab, Tab.named_line?, hx, htk', if_pos he, naming_modifyStation, hy, hport, raiseOptional_eq,
    State.modifyTab, htab, raised_tab, State.setTab_tab_self, hu, setTab_raised, naming_setStation_setTab,
    touch_eq, huntAgain_tab, raised_raised, hf]
  rw [both_comm, setTab_huntAgain, State.setTab_setTab]

end

/-! ### VOID_LINE of a line in hand (R39, R40) -/

/-- The ways a VOID_LINE of a line in hand goes (R39, R117). -/
def superviseVoid (l : Lane) (i : Slot) (n : Nat) (u : State) : Answer :=
  supervise l i (.voidFired n) 0 u (answer (applyVoidFired i n u) .ok (voidFields n .voided))
    (answer u .approvalsFull (voidFields n .fired)) (fun k => voidFields n .fired ++ [Field.small k])

/-- A VOID_LINE that finds on an OPEN tab a FIRED line whose ticket is live and not QUEUED (R39). -/
theorem voidLine_inHand {l : Lane} {tag : Nat} {f : VoidLineFields} {i : Slot} {x : Line} {st : StationNo} {place : TicketState}
    {tk : Ticket} {s t : State} {status : Status} {body : List Field} {r : Raised} (h : tillReady l tag s = true)
    (hi : s.findTab f.tab = some i) (hpin : (s.tab i).pin = none ∨ l ∈ (s.tab i).unlocked) (hopen : (s.tab i).state = .opened)
    (hx : (s.tab i).line? f.line = some x) (hfired : x.state = .fired) (hp : x.pending = none)
    (htk : s.ticketOf x = some (st, place, tk)) (hplace : place ≠ .queued)
    (hv : superviseVoid l i f.line (s.naming l i) = answer ((huntAgain (.lane l) t).raised r) status body)
    (hports : t.ports = s.ports) (ho : t.officeReceiver = s.officeReceiver) :
    exec (.voidLine (.lane l) tag (.fields f)) s = .next (t.answered (.lane l) tag 0x04 status body r) := by
  refine serve_tab h rfl hi (fun _ => rfl) (hv ▸ ?_) hports ho
  have hunlocked := (naming_unlocked h i).mpr hpin
  have htk' : (s.naming l i).ticketOf x = some (st, place, tk) := htk
  simp only [naming_tab, hunlocked, Tab.named_state, hopen, Tab.named_line?, hx, hp, hfired, htk', Bool.not_true,
    Bool.false_eq_true, if_false, ne_eq, not_true_eq_false, Option.isSome_none]
  cases place with
  | queued => exact absurd rfl hplace
  | inWork => rfl
  | setAside => rfl
  | done => rfl

/-- Settles O26: the three ways of R117 on a line in hand; applied, the ticket is shortened or killed. -/
theorem voidInWorkIsQueued : Obligations.VoidInWorkIsQueued := by
  intro l tag f i x tk st n place s hready hi hpin hopen h1 hget hfired hp hticket hlive hplace t
  obtain ⟨rfl, -⟩ := findLive_some hlive
  have hx : (s.tab i).line? f.line = some x := line?_eq.mpr ⟨h1, hget⟩
  have htk : s.ticketOf x = some (st, place, tk) := by
    rw [State.ticketOf, hticket]
    exact hlive
  have hvoid {status : Status} {body : List Field} {r : Raised} {t' : State} (hports : t'.ports = s.ports)
      (ho : t'.officeReceiver = s.officeReceiver)
      (hv : superviseVoid l i f.line (s.naming l i) = answer ((huntAgain (.lane l) t').raised r) status body) :
      exec (.voidLine (.lane l) tag (.fields f)) s = .next (t'.answered (.lane l) tag 0x04 status body r) :=
    voidLine_inHand hready hi hpin hopen hx hfired hp htk hplace hv hports ho
  refine ⟨fun number htoken hroom hc1 hc2 hfirst => ?_, fun htoken hfull => ?_, fun htoken hhand => ?_⟩
  · have hn := nextApproval_eq hc1 hc2 hfirst
    have hn' : (s.naming l i).nextApproval = number := hn
    refine hvoid (t' := s.withLineEntry l i f.line x (.voidFired f.line) 0 number) rfl rfl ?_
    rw [superviseVoid, supervise_room (s := s.naming l i) htoken hroom, queueEntry_line 0 rfl hx hn, hn']
    rfl
  · refine hvoid (t' := s.setTab i (t.named (.lane l))) rfl rfl ?_
    rw [superviseVoid, supervise_full (s := s.naming l i) htoken hfull, raised_nobody]
    rfl
  · obtain ⟨hqueue, hhand⟩ := hhand
    have happlied {t' : State} {r : Raised} (h : applyVoidFired i f.line (s.naming l i) = (huntAgain (.lane l) t').raised r) :
        superviseVoid l i f.line (s.naming l i)
          = answer ((huntAgain (.lane l) t').raised r) .ok [Field.small f.line, Field.code 3] := by
      rw [superviseVoid, supervise_holder (s := s.naming l i) htoken, h]
      rfl
    refine ⟨fun other hother hne => ?_, fun hlast => ?_⟩
    · have hy := Station.removeLine_shortened hqueue fun y hy hn => ⟨other, by rwa [hhand y hy hn], hne⟩
      exact hvoid rfl rfl (happlied (applyVoidFired_shortened hx htk (fun he => hne (emptiedBy_iff.mp he other hother)) hy
        (Tab.struck_named hp)))
    · have hy := Station.removeLine_killed hqueue fun y hy hn => by rwa [hhand y hy hn]
      have hu : ((s.tab i).named (.lane l)).oneTicketLess.voidLine f.line x
          = { (t.named (.lane l)).struck f.line x with live := t.live - 1 } := by
        rw [← Tab.struck_named hp, ← Tab.named_live (.lane l) t]
        rfl
      exact hvoid rfl rfl (happlied (applyVoidFired_emptied hx htk (emptiedBy_iff.mpr hlast) hy hu))

end Sys2Proof.Machine
end

section
/-! SUPPORT. OPEN_TAB (R25, R26): the slot and the number it takes. -/

namespace Sys2Proof.Machine

/-! ### The number of the next tab (R25) -/

theorem tabHeld_eq_numberHeld (s : State) : (fun n => s.tabHeld n = true) = s.numberHeld := by
  funext n
  simp [tabHeld_iff, bears_iff, State.numberHeld]

/-- Every number in range is met by counting on from the counter's value with its wrap. -/
theorem exists_offset {top start m : Nat} (h1 : 1 ≤ start) (h2 : start ≤ top) (hm1 : 1 ≤ m) (hm2 : m ≤ top) :
    ∃ k < top, m = (start - 1 + k) % top + 1 := by
  rcases Nat.lt_or_ge m start with h | h
  · refine ⟨m + top - start, by omega, ?_⟩
    rw [show start - 1 + (m + top - start) = m - 1 + top by omega, Nat.add_mod_right, Nat.mod_eq_of_lt (by omega)]
    omega
  · refine ⟨m - start, by omega, ?_⟩
    rw [Nat.mod_eq_of_lt (by omega)]
    omega

/-- Where some number in range is not in use, the search finds the one that comes first (R25, R66, R118). -/
theorem firstUnused_firstFrom {used : Nat → Bool} {top start m : Nat} (h1 : 1 ≤ start) (h2 : start ≤ top) (hm1 : 1 ≤ m)
    (hm2 : m ≤ top) (hm : used m = false) :
    FirstFrom top (fun n => used n = true) start (firstUnused used top top start) := by
  obtain ⟨k, hk, rfl⟩ := exists_offset h1 h2 hm1 hm2
  have hex : ∃ k, used ((start - 1 + k) % top + 1) = false := ⟨k, hm⟩
  have hle : Nat.find hex ≤ k := Nat.find_min' hex hm
  have hfirst : FirstFrom top (fun n => used n = true) start ((start - 1 + Nat.find hex) % top + 1) :=
    ⟨Nat.find hex, by omega, rfl, by simp [Nat.find_spec hex], fun j hj => by simpa using Nat.find_min hex hj⟩
  rwa [firstUnused_first h1 h2 hfirst]

/-- The next tab's number is the first not held, counting upward from the counter with its wrap (R25). -/
theorem nextTabNumber_firstFrom {s : State} (h1 : 1 ≤ s.tabCounter) (h2 : s.tabCounter ≤ 9999) :
    FirstFrom 9999 s.numberHeld s.tabCounter s.nextTabNumber := by
  obtain ⟨hm1, hm2⟩ := firstUnused_range s.tabHeld Config.maxTabNumber h1 h2
  exact tabHeld_eq_numberHeld s ▸ firstUnused_firstFrom h1 h2 hm1 hm2 (nextTabNumber_unheld s)

/-! ### OPEN_TAB (R26) -/

theorem taken_of_till {l : Lane} {tag : Nat} {s : State} (h : tillReady l tag s = true) : Taken (.lane l) tag s := by
  simp only [tillReady, Bool.and_eq_true] at h
  exact laneReady_spec h.1

theorem mayRequest_of_till {l : Lane} {tag : Nat} {s : State} {k : Kind} (h : tillReady l tag s = true)
    (hk : (senders k).till = true) : mayRequest (.lane l) k s = true := by
  simp only [tillReady, Bool.and_eq_true, decide_eq_true_eq] at h
  simp [mayRequest, h.2, hk]

theorem freeSlot_eq {s : State} {i : Slot} (h : (s.tab i).state = .free) (hmin : ∀ j, j < i → (s.tab j).state ≠ .free) :
    s.freeSlot = some i := by
  unfold State.freeSlot
  rw [List.find?_eq_some_iff_getElem]
  refine ⟨by simpa using h, i.val, by simp, by simp, fun j hlt => ?_⟩
  simpa using hmin ⟨j, hlt.trans i.isLt⟩ hlt

theorem pinOk_iff {pin : Option Nat} : pinOk pin = true ↔ ∀ n, pin = some n → n ≤ 999999 := by
  cases pin with
  | none => simp [pinOk]
  | some n => exact decide_eq_true_iff.trans ⟨fun h m hm => Option.some.inj hm ▸ h, fun h => h n rfl⟩

theorem openTab_opens {l : Lane} {f : OpenTabFields} {i : Slot} {s : State} (hi : s.freeSlot = some i) (hs : f.service ≤ 2500)
    (hp : pinOk f.pin = true) :
    openTab l f s = answer { s.setTab i (openedTab s.nextTabNumber l f s.clock) with
      tabCounter := nextNumber Config.maxTabNumber s.nextTabNumber } .ok [Field.ident s.nextTabNumber] := by
  have hr : ¬Config.maxRate < f.service := Nat.not_lt.mpr hs
  simp [openTab, hi, hr, hp]

/-- Settles O21: the search of R25 finds a number, as there are more numbers than slots. -/
theorem openTabFillsSlot : Obligations.OpenTabFillsSlot := by
  intro l tag f i s hready hfree hmin hservice hpin h1 h2
  have hfirst := nextTabNumber_firstFrom h1 h2
  obtain ⟨hn1, hn2⟩ := firstUnused_range s.tabHeld Config.maxTabNumber h1 h2
  have hunheld : ¬s.numberHeld s.nextTabNumber := by
    rw [← tabHeld_eq_numberHeld]
    simp [nextTabNumber_unheld]
  refine ⟨s.nextTabNumber, hn1, hn2, fun j => ?_, fun hnone => ?_, hfirst, ?_⟩
  · by_contra h
    rw [not_or, not_not] at h
    exact hunheld ⟨j, h⟩
  · refine firstUnused_self ?_
    by_contra h
    obtain ⟨j, hj⟩ := tabHeld_iff.mp (Bool.not_eq_false _ ▸ h)
    obtain ⟨hst, hnum⟩ := bears_iff.mp hj
    exact (findTab_none hnone h1 h2 j).elim hst (· hnum)
  · have hcounter : (if s.nextTabNumber = 9999 then 1 else s.nextTabNumber + 1) = nextNumber Config.maxTabNumber s.nextTabNumber := by
      have hle : s.nextTabNumber ≤ 9999 := hn2
      unfold nextNumber Config.maxTabNumber
      split <;> split <;> omega
    rw [hcounter]
    refine serve_unchanged (taken_of_till hready) (mayRequest_of_till hready rfl) ?_ rfl rfl
    exact openTab_opens (s := huntAgain (.lane l) s) (freeSlot_eq hfree hmin) hservice (pinOk_iff.mpr hpin)

end Sys2Proof.Machine
end

section
/-! SUPPORT. Requests that any port may make on a tab: the views (R32, R154), the followers (R45) and the service rate (R47). -/

namespace Sys2Proof.Machine

/-! ### A port's request on a tab (R24, R161) -/

/-- The state in which a port's request on a tab meets its checks: the claim restarted (R161) and the port hunting. -/
def State.namingBy (p : Port) (i : Slot) (s : State) : State := huntAgain p (s.setTab i ((s.tab i).named p))

@[simp] theorem namingBy_tab (p : Port) (i : Slot) (s : State) : (s.namingBy p i).tab i = (s.tab i).named p := by
  simp [State.namingBy]

theorem namingBy_setTab (p : Port) (i : Slot) (s : State) (u : Tab) : (s.namingBy p i).setTab i u = huntAgain p (s.setTab i u) := by
  rw [State.namingBy, setTab_huntAgain, State.setTab_setTab]

/-- A taken request that names a tab: what its continuation answers on the tab with its claim restarted. -/
theorem serve_named {α : Type} {k : Kind} {c : Codec α} {p : Port} {tag : Nat} {fields : α} {n : Nat} {i : Slot}
    {missing : List Field} {block : α → State → Answer} {cont : Slot → State → Answer} {s t : State} {status : Status}
    {body : List Field} {r : Raised} (ht : Taken p tag s) (hm : mayRequest p k s = true) (hi : s.findTab n = some i)
    (hw : ∀ u, block fields u = withTab p n u cont missing)
    (hb : cont i (s.namingBy p i) = answer ((huntAgain p t).raised r) status body)
    (hp : t.ports = s.ports) (ho : t.officeReceiver = s.officeReceiver) :
    serve k c p tag (.fields fields) block s = .next (t.answered p tag (kindCode k) status body r) := by
  refine serve_answered ht hm ?_ hp ho
  rw [← hb]
  simp only [hw, withTab_eq, huntAgain_findTab, hi, huntAgain_tab, setTab_huntAgain, State.namingBy]

/-- A taken request that names a tab and changes nothing but its record, no event raised. -/
theorem serve_named_quietly {α : Type} {k : Kind} {c : Codec α} {p : Port} {tag : Nat} {fields : α} {n : Nat} {i : Slot}
    {missing : List Field} {block : α → State → Answer} {cont : Slot → State → Answer} {s : State} {u : Tab} {status : Status}
    {body : List Field} (ht : Taken p tag s) (hm : mayRequest p k s = true) (hi : s.findTab n = some i)
    (hw : ∀ u, block fields u = withTab p n u cont missing)
    (hb : cont i (s.namingBy p i) = answer ((s.namingBy p i).setTab i u) status body) :
    serve k c p tag (.fields fields) block s = .next ((s.setTab i u).answered p tag (kindCode k) status body nobody) :=
  serve_named ht hm hi hw (by rw [hb, namingBy_setTab, raised_nobody]) rfl rfl

/-! ### FOLLOW, UNFOLLOW and SET_SERVICE (R45, R47) -/

theorem taken_of_join {l : Lane} {tag : Nat} {s : State} (h : joinReady l tag s = true) : Taken (.lane l) tag s := by
  simp only [joinReady, Bool.and_eq_true] at h
  exact laneReady_spec h.1

theorem mayRequest_of_join {l : Lane} {tag : Nat} {s : State} {k : Kind} (h : joinReady l tag s = true)
    (hk : senders k = senderLanes) : mayRequest (.lane l) k s = true := by
  simp only [joinReady, Bool.and_eq_true, decide_eq_true_eq] at h
  cases hr : (s.port l).role with
  | off => exact absurd hr h.2
  | till => simp [mayRequest, hr, hk, senderLanes]
  | station => simp [mayRequest, hr, hk, senderLanes]

/-- The office owns no tab, so its requests restart no claim (R161). -/
theorem Tab.named_office (t : Tab) : t.named .office = t := by
  unfold Tab.named
  rw [if_neg]
  cases t.owner <;> simp

/-- Settles O29: each request on the tab it names, replacing one field of its record. -/
theorem followersAndService : Obligations.FollowersAndService := by
  intro n i tag s hi
  refine ⟨fun l hready hnew hroom => ?_, fun l hready => ?_, fun rate hready hopen hrate => ?_⟩
  · refine serve_named_quietly (taken_of_join hready) (mayRequest_of_join hready rfl) hi (fun _ => rfl) ?_
    have hroom' : ¬Config.maxFollowers ≤ (s.tab i).followers.length := Nat.not_le.mpr hroom
    simp only [namingBy_tab, Tab.named_followers, List.contains_eq_mem, decide_eq_true_eq, hnew, if_false, hroom']
  · refine serve_named_quietly (taken_of_join hready) (mayRequest_of_join hready rfl) hi (fun _ => rfl) ?_
    simp only [namingBy_tab, Tab.named_followers]
  · refine serve_named (t := s.setTab i { s.tab i with service := rate }) (officeReady_spec hready)
      (by simp [mayRequest, senders, senderTillsAndOffice]) hi (fun _ => rfl) ?_ rfl rfl
    have hrate' : ¬Config.maxRate < rate := Nat.not_lt.mpr hrate
    simp only [namingBy_tab, Tab.named_office, ne_eq, not_true_eq_false, false_and, if_false, lockedPort, Bool.false_eq_true, hopen,
      hrate', namingBy_setTab, touch_eq, huntAgain_tab, State.setTab_tab_self]

/-! ### What a view shows does not depend on the request (R51, R59) -/

theorem figure_congr {p : Port} {t : Tab} {s u : State} (h : ∀ l, (u.port l).role = (s.port l).role) :
    figure p t u = figure p t s := by
  have hlocked : lockedPort p t u = lockedPort p t s := by
    cases p with
    | office => rfl
    | lane l =>
      have hu : unlockedTill l t u = unlockedTill l t s := Bool.eq_iff_iff.mpr (by rw [unlockedTill_iff, unlockedTill_iff, h])
      rw [lockedPort, lockedPort, hu]
  funext n
  rw [figure, figure, hlocked]

theorem figure_namingBy (p q : Port) (i : Slot) (t : Tab) (s : State) : figure q t (s.namingBy p i) = figure q t s :=
  figure_congr fun l => huntAgain_role _ p l

theorem namingBy_shareAt (p : Port) (i : Slot) (s : State) (t : Tab) (n : Nat) :
    (s.namingBy p i).shareAt t n = s.shareAt t n := by
  cases p <;> rfl

theorem tabHeader_congr {p : Port} {t : Tab} {s u : State} (h : figure p t u = figure p t s) : tabHeader p t u = tabHeader p t s := by
  unfold tabHeader
  rw [h]

theorem lineFields_congr {p : Port} {t : Tab} {s u : State} (h : figure p t u = figure p t s) :
    lineFields p t u = lineFields p t s := by
  funext q
  unfold lineFields
  rw [h]

/-- The line after a page stands at the page's end, with the number that its place gives it (R27, R32). -/
theorem numbered_page_next {t : Tab} {first : Nat} (h1 : 1 ≤ first) :
    optField (fun q : Nat × Line => [Field.small q.1]) (t.numbered.drop (first - 1))[6]?
      = if 6 < (t.numbered.drop (first - 1)).length then [Field.presence true, Field.small (first + 6)]
        else [Field.presence false] := by
  split
  · rename_i h
    rw [List.getElem?_eq_getElem h]
    simp only [optField, Tab.numbered, List.getElem_drop, List.getElem_map, List.getElem_zipIdx]
    congr 3
    omega
  · rw [List.getElem?_eq_none (by omega)]
    rfl

/-- The body of a TAB_VIEW (R32, R33). -/
theorem tabView_body {p : Port} {t : Tab} {first : Nat} (s : State) (h1 : 1 ≤ first) :
    (let rest := t.numbered.drop (first - 1)
     tabHeader p t s ++ listField (lineFields p t s) (rest.take Config.tabPage)
        ++ optField (fun q : Nat × Line => [Field.small q.1]) rest[Config.tabPage]?
      = tabHeader p t s ++ [Field.listCount (min 6 rest.length)] ++ (rest.take 6).flatMap (lineFields p t s)
        ++ if 6 < rest.length then [Field.presence true, Field.small (first + 6)] else [Field.presence false]) := by
  dsimp only
  rw [Config.tabPage, numbered_page_next h1, listField, List.length_take, List.append_cons]

/-- The body of a SHARE_VIEW: the header, the share asked for once the split is complete, and the next share's index (R154). -/
def shareViewBody (p : Port) (t : Tab) (r : SplitRef) (first : Nat) (s : State) : List Field :=
  splitHeader (figure p t s) t r
    ++ optField (shareFields (figure p t s)) (if r.totals.isSome then (s.shareAt t first).map Prod.snd else none)
    ++ optField (fun n => [Field.small n]) (if r.totals.isSome ∧ first < r.count then some (first + 1) else none)

theorem shareViewBody_computing {p : Port} {t : Tab} {r : SplitRef} {first : Nat} {s : State} (h : r.totals = none) :
    shareViewBody p t r first s = splitHeader (figure p t s) t r ++ [Field.presence false, Field.presence false] := by
  simp [shareViewBody, h, optField]

theorem shareViewBody_complete {p : Port} {t : Tab} {r : SplitRef} {first : Nat} {s : State} {x : Totals} {j : ShareNo}
    {sh : Share} (h : r.totals = some x) (hsh : s.shareAt t first = some (j, sh)) :
    shareViewBody p t r first s
      = splitHeader (figure p t s) t r ++ Field.presence true :: shareFields (figure p t s) sh
          ++ if first < r.count then [Field.presence true, Field.small (first + 1)] else [Field.presence false] := by
  by_cases hn : first < r.count <;> simp [shareViewBody, h, hsh, hn, optField]

/-- Settles O22: both views read the tab with its claim restarted. -/
theorem tabAndShareViews : Obligations.TabAndShareViews := by
  intro p tag f i s hready hi t s'
  have htaken := taken_of_any hready
  have hfig : figure p t (s.namingBy p i) = figure p t s := figure_namingBy p p i t s
  have hread : s.namingBy p i = (s.namingBy p i).setTab i t := by rw [namingBy_setTab]; rfl
  refine ⟨fun h1 h64 => ?_, fun r hsplit h1 h24 =>
    ⟨shareViewBody p t r f.first s, ?_, shareViewBody_computing, fun x j sh => shareViewBody_complete⟩⟩
  · refine serve_named_quietly (block := tabView p) htaken (mayRequest_of_any hready rfl) hi (fun _ => rfl) ?_
    have hpage : ¬(f.first < 1 ∨ Config.maxLines < f.first) := by unfold Config.maxLines; omega
    rw [← hread, if_neg hpage]
    dsimp only
    rw [namingBy_tab, tabView_body _ h1, tabHeader_congr hfig, lineFields_congr hfig]
  · refine serve_named_quietly (block := shareView p) htaken (mayRequest_of_any hready rfl) hi (fun _ => rfl) ?_
    have hpage : ¬(f.first < 1 ∨ Config.maxShares < f.first) := by unfold Config.maxShares; omega
    have hsplit' : ((s.tab i).named p).split = some r := hsplit
    rw [← hread]
    dsimp only
    rw [namingBy_tab, hsplit']
    dsimp only
    rw [if_neg hpage, hfig, namingBy_shareAt]
    rfl

end Sys2Proof.Machine
end

section
/-! SUPPORT. A tab becoming FREE (R23, R128), and what frees one: a BUMP of an EXPORTED tab's last ticket (R48) and TAKE_CLOSED (R166);
ADOPT (R164). -/

namespace Sys2Proof.Machine

/-! ### Entries ended with a tab (R128) -/

/-- A state with an entry out of the queue and its outcome in its requester's list (R116, R129). -/
def State.entryGone (v : Verdict) (e : Entry) (s : State) : State :=
  { s with
    approvals := s.approvals.filter fun x => x.number ≠ e.number
    results := s.results.set e.requester
      (pushResult { number := e.number, ask := e.ask, tab := e.tab, verdict := v, decidedAt := s.clock }
        (s.resultsOf e.requester)) }

theorem closeEntry_raised (v : Verdict) (s : State) (r : Raised) (e : Entry) :
    closeEntry v (s.raised r) e = (s.entryGone v e).raised (both r (toPort .approvalDone (.lane e.requester))) := by
  rw [closeEntry_eq, ← raised_raised]
  rfl

/-- What ending entries leaves, whatever their numbers: events raised besides those that were, and no entry whose number one of them
bore. -/
structure EntriesGone (gone : List Entry) (s t : State) : Prop where
  ports : t.ports = s.ports
  receiver : t.officeReceiver = s.officeReceiver
  tabs : t.tabs = s.tabs
  approvals : ∀ e ∈ t.approvals, e ∈ s.approvals ∧ e ∉ gone

theorem closeEntries_raised (v : Verdict) (gone : List Entry) (s : State) (r : Raised) :
    ∃ t r', gone.foldl (closeEntry v) (s.raised r) = t.raised (both r r') ∧ EntriesGone gone s t := by
  induction gone generalizing s r with
  | nil => exact ⟨s, nobody, by rw [both_nobody, List.foldl_nil], rfl, rfl, rfl, fun e he => ⟨he, by simp⟩⟩
  | cons g gone ih =>
    obtain ⟨t, r', heq, hports, hrec, htabs, happ⟩ :=
      ih (s.entryGone v g) (both r (toPort .approvalDone (.lane g.requester)))
    refine ⟨t, _, by rw [List.foldl_cons, closeEntry_raised, heq, both_assoc], hports, hrec, htabs, fun e he => ?_⟩
    obtain ⟨hmem, hnot⟩ := happ e he
    have hmem' : e ∈ s.approvals ∧ e.number ≠ g.number := by simpa [State.entryGone] using hmem
    refine ⟨hmem'.1, fun h => ?_⟩
    rcases List.mem_cons.mp h with rfl | h
    · exact hmem'.2 rfl
    · exact hnot h

/-- What a tab becoming FREE leaves (R23), whatever the numbers of its entries. -/
structure TabFreed (i : Slot) (s t : State) : Prop where
  ports : t.ports = s.ports
  receiver : t.officeReceiver = s.officeReceiver
  tabs : t.tabs = s.tabs.set i Tab.blank
  recalls : ∀ k, ∀ y ∈ (t.station k).recalls, y.tab ≠ (s.tab i).number
  approvals : ∀ e ∈ t.approvals, e.tab ≠ (s.tab i).number

theorem forgetDone_recalls (n : Nat) (s : State) (k : StationNo) :
    ((forgetDone n s).station k).recalls = (s.station k).recalls.filter fun y => y.tab ≠ n :=
  congrArg Station.recalls (tableOf_get _ k)

theorem freeTab_raised (i : Slot) (s : State) (r : Raised) :
    ∃ t r', freeTab i (s.raised r) = t.raised (both r r') ∧ TabFreed i s t := by
  let n := (s.tab i).number
  let gone := s.approvals.filter fun e => e.tab = n && true
  obtain ⟨t, r', heq, hgone⟩ := closeEntries_raised .stale gone s (both r (toLanes .tabChanged (s.tab i).followers))
  have hfree : freeTab i (s.raised r) = (forgetDone n (gone.foldl (closeEntry .stale)
      (s.raised (both r (toLanes .tabChanged (s.tab i).followers))))).setTab i Tab.blank := by
    rw [← raised_raised, freeTab, touch_eq]
    rfl
  rw [heq, both_assoc] at hfree
  refine ⟨(forgetDone n t).setTab i Tab.blank, _, hfree, hgone.ports, hgone.receiver, ?_, fun k y hy => ?_, fun e he => ?_⟩
  · rw [State.setTab_tabs, ← hgone.tabs]
    rfl
  · rw [State.setTab_station, forgetDone_recalls] at hy
    simpa using (List.mem_filter.mp hy).2
  · obtain ⟨hmem, hnot⟩ := hgone.approvals e he
    exact fun h => hnot (List.mem_filter.mpr ⟨hmem, by simpa using h⟩)

/-! ### A BUMP that frees its tab (R48) -/

/-- What a request answers whose block answers, from the state that its block leaves. -/
theorem serve_concluded {α : Type} {k : Kind} {c : Codec α} {p : Port} {tag : Nat} {fields : α} {block : α → State → Answer}
    {s t : State} {status : Status} {body : List Field} {r : Raised} (ht : Taken p tag s) (hm : mayRequest p k s = true)
    (hb : block fields (huntAgain p s) = answer (t.raised r) status body) (hp : t.ports = (huntAgain p s).ports)
    (ho : t.officeReceiver = (huntAgain p s).officeReceiver) :
    serve k c p tag (.fields fields) block s = .next (t.answered p tag (kindCode k) status body r) := by
  obtain ⟨hr, htag, hov, hco, haw⟩ := ht
  rw [serve_taken block hr hov hco htag haw hm, hb, conclude_answer p tag k s t status body r hp ho]

theorem answered_events (p : Port) (tag code : Nat) (status : Status) (body : List Field) (r : Raised) (s : State) (l : Lane) :
    ((s.answered p tag code status body r).port l).events = (s.port l).events ||| r (.lane l) := by
  refine (congrArg PortEntry.events (tableOf_get _ l)).trans ?_
  split <;> rfl

theorem and_raised_ne_zero {e a b : EventSet} {k : EventKind} (h : a = eventBit k) : (e ||| (a ||| b)) &&& eventBit k ≠ 0 := by
  have hb : (e ||| (a ||| b)) &&& eventBit k = eventBit k := by
    subst h
    ext n
    simp only [BitVec.getElem_and, BitVec.getElem_or]
    cases e[n] <;> cases (eventBit k)[n] <;> simp
  rw [hb]
  cases k <;> decide

theorem TabFreed.of_setTab {i : Slot} {u : Tab} {s t : State} (h : TabFreed i (s.setTab i u) t) (hn : u.number = (s.tab i).number) :
    TabFreed i s t := by
  obtain ⟨hports, hrec, htabs, hrecalls, happ⟩ := h
  rw [State.setTab_tab_self, hn] at hrecalls happ
  exact ⟨hports, hrec, htabs.trans (congrArg State.tabs (State.setTab_setTab s i u Tab.blank)), hrecalls, happ⟩

/-- The tab's side of a BUMP of an EXPORTED tab's last live ticket (R48, R97). -/
theorem serveTab_frees {i : Slot} {s : State} (tk : Ticket) (hst : (s.tab i).state = .exported) (hl : (s.tab i).live = 1) :
    ∃ t r, serveTab i tk s = State.raised (both (toLanes .tabChanged (s.tab i).followers) r) t ∧ TabFreed i s t := by
  let u := ((s.tab i).changeLines tk.lines serveLine).oneTicketLess
  have hself : (s.setTab i u).tab i = u := State.setTab_tab_self s i u
  obtain ⟨t, r, heq, hfreed⟩ := freeTab_raised i (s.setTab i u) (toLanes .tabChanged u.followers)
  let v := (s.setTab i u).raised (toLanes .tabChanged u.followers)
  have hlast : (v.tab i).state = .exported ∧ (v.tab i).live = 0 := by
    rw [raised_tab, hself]
    exact ⟨hst, by simp [u, Tab.oneTicketLess, Tab.changeLines, hl]⟩
  have hserve : serveTab i tk s = freeTab i v := by
    rw [serveTab, State.modifyTab, touch_eq, hself]
    exact if_pos hlast
  exact ⟨t, r, hserve.trans heq, hfreed.of_setTab rfl⟩

theorem mayRequest_of_station {l : Lane} {st : StationNo} {tag : Nat} {s : State} {k : Kind} (h : stationReady l st tag s = true)
    (hk : (senders k).boundStation = true) : mayRequest (.lane l) k s = true := by
  simp only [stationReady, Bool.and_eq_true, decide_eq_true_eq] at h
  simp [mayRequest, h.1.2, h.2, hk]

/-- What a bound station port's request answers whose block answers, from the state that its block leaves. -/
theorem serveStation_concluded {α : Type} {k : Kind} {c : Codec α} {l : Lane} {st : StationNo} {tag : Nat} {fields : α}
    {block : StationNo → α → State → Answer} {s t : State} {status : Status} {body : List Field} {r : Raised}
    (h : stationReady l st tag s = true) (hk : (senders k).boundStation = true)
    (hb : block st fields (huntAgain (.lane l) s) = answer (t.raised r) status body)
    (hp : t.ports = (huntAgain (.lane l) s).ports) (ho : t.officeReceiver = (huntAgain (.lane l) s).officeReceiver) :
    serveStation k c (.lane l) tag (.fields fields) block s = .next (t.answered (.lane l) tag (kindCode k) status body r) := by
  have hm := mayRequest_of_station h hk
  simp only [stationReady, Bool.and_eq_true, decide_eq_true_eq] at h
  obtain ⟨⟨hlane, -⟩, hbound⟩ := h
  refine serve_concluded (laneReady_spec hlane) hm ?_ hp ho
  simp only [huntAgain_bound, hbound]
  exact hb

/-- Settles O38: the BUMP's tab has no live ticket left, and what becoming FREE leaves is read off. -/
theorem bumpFreesExportedTab : Obligations.BumpFreesExportedTab := by
  intro l st tag tk i s hready hwork hi hst hlive
  obtain ⟨-, -, -, hnum⟩ := findTab_some hi
  let u := (huntAgain (.lane l) s).modifyStation st (Station.bumpTicket tk)
  obtain ⟨t, r, hserve, hfreed⟩ := serveTab_frees (i := i) (s := u) tk hst hlive
  have hbump : bump st () (huntAgain (.lane l) s)
      = answer (State.raised (both (toLanes .tabChanged (s.tab i).followers) r) t) .ok [Field.ident tk.number] := by
    have hwork' : ((huntAgain (.lane l) s).station st).inWork = some tk := hwork
    have hi' : u.findTab tk.tab = some i := hi
    simp only [bump, hwork']
    rw [hi']
    exact answer_congr hserve rfl rfl
  refine ⟨_, serveStation_concluded hready rfl hbump hfreed.ports hfreed.receiver, ?_, fun j hj => ?_, fun k y hy => ?_,
    fun e he => ?_, fun m hm => ?_⟩
  · exact (State.tab_congr (s := u.setTab i Tab.blank) hfreed.tabs i).trans (State.setTab_tab_self _ _ _)
  · exact (State.tab_congr (s := u.setTab i Tab.blank) hfreed.tabs j).trans (State.setTab_tab_ne _ _ hj)
  · exact hnum ▸ hfreed.recalls k y hy
  · exact hnum ▸ hfreed.approvals e he
  · rw [answered_events]
    exact and_raised_ne_zero (by simp [toLanes, hm])

end Sys2Proof.Machine
end

section
/-! SUPPORT. ADOPT of an ownerless split (R164), and TAKE_CLOSED (R23, R128, R166). -/

namespace Sys2Proof.Machine

/-! ### ADOPT (R164) -/

/-- A tab without a settle owner has no claim to restart (R161). -/
theorem Tab.named_ownerless {p : Port} {t : Tab} (h : t.owner = none) : t.named p = t := by
  unfold Tab.named
  rw [if_neg]
  simp [h]

/-- An unlocked till is shown the figures as they are (R59). -/
theorem figure_unlocked {l : Lane} {t : Tab} {s : State} (h : unlockedTill l t s = true) (n : Nat) : figure (.lane l) t s n = n := by
  simp [figure, lockedPort, h]

/-- What ADOPT carries to an unlocked till (R164). -/
theorem adoptFields_unlocked {l : Lane} {t : Tab} {r : SplitRef} {x : Totals} {s : State} (h : unlockedTill l t s = true)
    (hr : t.split = some r) (hx : r.totals = some x) :
    adoptFields l t r s
      = [Field.small r.count, Field.amount x.total, Field.listCount (s.sharesOf t).length]
        ++ (s.sharesOf t).map fun sh => Field.amount (sh.figures.due - sh.paid) := by
  have ht : t.total? = some x.total := by simp [Tab.total?, hr, hx]
  simp only [adoptFields, figure_unlocked h, ht, Option.getD_some, listField, Share.remaining, List.map_eq_flatMap]
  rfl

/-- ADOPT of an ownerless split by an unlocked till. -/
theorem adopt_ownerless {l : Lane} {tag n : Nat} {i : Slot} {r : SplitRef} {x : Totals} {s : State}
    (h : tillReady l tag s = true) (hi : s.findTab n = some i) (hpin : (s.tab i).pin = none ∨ l ∈ (s.tab i).unlocked)
    (hst : (s.tab i).state = .settling) (hsplit : (s.tab i).split = some r) (hx : r.totals = some x)
    (howner : (s.tab i).owner = none) :
    exec (.adopt (.lane l) tag (.fields n)) s = .next
      ((s.setTab i { s.tab i with owner := some l, claim := some 300 }).answered (.lane l) tag 0x35 .ok
        ([Field.small r.count, Field.amount x.total, Field.listCount (s.sharesOf (s.tab i)).length]
          ++ (s.sharesOf (s.tab i)).map fun sh => Field.amount (sh.figures.due - sh.paid))
        (toLanes .tabChanged (s.tab i).followers)) := by
  have hnamed : (s.tab i).named (.lane l) = s.tab i := Tab.named_ownerless howner
  have hunlocked : unlockedTill l (s.tab i) (s.naming l i) = true := by
    have := (naming_unlocked h i).mpr hpin
    rwa [hnamed] at this
  have htotals : r.totals ≠ none := by simp [hx]
  refine serve_tab h rfl hi (fun _ => rfl) ?_ rfl rfl
  simp only [naming_tab, hnamed, hunlocked, hsplit, hst, howner, htotals, Bool.not_true, Bool.false_eq_true, if_false, ne_eq,
    not_true_eq_false, or_self, adoptFields_unlocked hunlocked hsplit hx, naming_setTab, touch_eq, huntAgain_tab,
    State.setTab_tab_self]
  rfl

/-! ### TAKE_CLOSED (R166) -/

/-- A tab becoming FREE whose entries have numbers of their own (R23, R128). -/
theorem freeTab_eq (i : Slot) {s : State} (hn : (s.approvals.map Entry.number).Nodup) :
    (let gone := s.approvals.filter fun e => e.tab = (s.tab i).number
     freeTab i s
      = (State.ended gone .stale ((forgetDone (s.tab i).number s).setTab i Tab.blank)).raised
          (both (toLanes .tabChanged (s.tab i).followers) (toRequesters gone))) := by
  have hgone : (s.approvals.filter fun e => e.tab = (s.tab i).number && true)
      = s.approvals.filter fun e => e.tab = (s.tab i).number := by simp
  have hended := endStale_eq (s.tab i).number (fun _ => true) (touch i s) ((touch_eq i s).symm ▸ hn)
  dsimp only at hended ⊢
  rw [touch_eq, raised_approvals, hgone] at hended
  rw [freeTab, touch_eq, hended, ← raised_raised]
  rfl

/-- A tab whose summary has been taken, with its records free (R166). -/
def State.exporting (i : Slot) (r : SplitRef) (s : State) : State :=
  (freeShares r.refs s).setTab i (s.tab i).unsplit

theorem exporting_tab (i : Slot) (r : SplitRef) (s : State) : (s.exporting i r).tab i = (s.tab i).unsplit :=
  State.setTab_tab_self _ i _

theorem exportTab_eq {i : Slot} {r : SplitRef} {s : State} (hr : (s.tab i).split = some r) :
    exportTab i s
      = if (s.tab i).live = 0 then freeTab i (s.exporting i r)
        else touch i ((s.exporting i r).modifyTab i fun t => { t with state := .exported }) := by
  have hrefs : (s.tab i).shareRefs = r.refs := by rw [Tab.shareRefs, hr]
  have hlive : ((s.exporting i r).tab i).live = (s.tab i).live := by rw [exporting_tab]; rfl
  rw [exportTab, hrefs, ← hlive]
  rfl

/-- With live tickets left the tab is EXPORTED (R166). -/
theorem exportTab_live {i : Slot} {r : SplitRef} {s : State} (hr : (s.tab i).split = some r) (hl : 1 ≤ (s.tab i).live) :
    exportTab i s
      = ((freeShares r.refs s).setTab i { s.tab i with state := .exported, split := none }).raised
          (toLanes .tabChanged (s.tab i).followers) := by
  rw [exportTab_eq hr, if_neg (Nat.pos_iff_ne_zero.mp hl), State.modifyTab, exporting_tab, touch_eq, State.setTab_tab_self,
    State.exporting, State.setTab_setTab]
  rfl

/-- With none left it is FREE (R23, R128, R166). -/
theorem exportTab_free {i : Slot} {r : SplitRef} {s : State} (hr : (s.tab i).split = some r) (hl : (s.tab i).live = 0)
    (hn : (s.approvals.map Entry.number).Nodup) :
    (let gone := s.approvals.filter fun e => e.tab = (s.tab i).number
     exportTab i s
      = (State.ended gone .stale ((forgetDone (s.tab i).number (freeShares r.refs s)).setTab i Tab.blank)).raised
          (both (toLanes .tabChanged (s.tab i).followers) (toRequesters gone))) := by
  have hfree := freeTab_eq i (s := s.exporting i r) hn
  dsimp only at hfree ⊢
  rw [exportTab_eq hr, if_pos hl, hfree, exporting_tab]
  have hset : (forgetDone (s.tab i).number (s.exporting i r)).setTab i Tab.blank
      = (forgetDone (s.tab i).number (freeShares r.refs s)).setTab i Tab.blank :=
    State.setTab_setTab (forgetDone (s.tab i).number (freeShares r.refs s)) i (s.tab i).unsplit Tab.blank
  exact congrArg (fun v => (State.ended _ .stale v).raised _) hset

theorem summaryOf_complete {t : Tab} {r : SplitRef} {x : Totals} (s : State) (hr : t.split = some r) (hx : r.totals = some x) :
    summaryOf t s = closeSummary t r x (s.sharesOf t) := by
  simp only [summaryOf, hr, hx]

/-- TAKE_CLOSED of a queue that names a tab (R165, R166). -/
theorem takeClosed_first {s : State} {n : Nat} {rest : List Nat} {i : Slot} {r : SplitRef} {x : Totals}
    (hq : s.closeQueue = n :: rest) (hi : s.findTab n = some i) (hr : (s.tab i).split = some r) (hx : r.totals = some x) :
    takeClosed () s
      = answer (exportTab i { s with closeQueue := rest }) .ok (closeSummary (s.tab i) r x (s.sharesOf (s.tab i))) := by
  have hi' : State.findTab { s with closeQueue := rest } n = some i := hi
  have hsum := summaryOf_complete (t := s.tab i) { s with closeQueue := rest } hr hx
  simp only [takeClosed, hq, hi']
  exact answer_congr rfl rfl hsum

/-- Settles O53: ADOPT, then TAKE_CLOSED of an empty queue, of a tab with live tickets and of one without. -/
theorem adoptAndTakeClosed : Obligations.AdoptAndTakeClosed := by
  refine ⟨fun l tag n i r x s hready hi hpin hst hsplit hx howner => adopt_ownerless hready hi hpin hst hsplit hx howner,
    fun tag s hready => ⟨fun hq => ?_, fun n rest i r x hq hi hr hx => ⟨fun hl => ?_, fun hl hn => ?_⟩⟩⟩
  · refine serve_unchanged (officeReady_spec hready) rfl ?_ rfl rfl
    have hq' : (huntAgain .office s).closeQueue = [] := hq
    simp only [takeClosed, hq']
  · have hfirst := takeClosed_first (s := huntAgain .office s) hq hi hr hx
    rw [exportTab_live (s := { huntAgain .office s with closeQueue := rest }) hr hl] at hfirst
    exact serve_answered (officeReady_spec hready) rfl hfirst rfl rfl
  · obtain ⟨-, -, -, rfl⟩ := findTab_some hi
    have hfirst := takeClosed_first (s := huntAgain .office s) hq hi hr hx
    have hfree := exportTab_free (s := { huntAgain .office s with closeQueue := rest }) hr hl hn
    dsimp only at hfree
    rw [hfree] at hfirst
    exact serve_answered (officeReady_spec hready) rfl hfirst rfl rfl

end Sys2Proof.Machine
end

section
/-! SUPPORT. What a locked port and a station are shown (R59, R60): no figure of money. -/

namespace Sys2Proof.Machine

/-! ### Bodies whose every field passes a test -/

/-- Every field of a body passes a test. -/
def AllFields (P : Field → Bool) (body : List Field) : Prop := ∀ x ∈ body, P x = true

section
variable {P : Field → Bool}

@[simp] theorem allFields_nil : AllFields P [] := List.forall_mem_nil _

@[simp] theorem allFields_cons {x : Field} {body : List Field} : AllFields P (x :: body) ↔ P x = true ∧ AllFields P body :=
  List.forall_mem_cons

@[simp] theorem allFields_append {a b : List Field} : AllFields P (a ++ b) ↔ AllFields P a ∧ AllFields P b :=
  List.forall_mem_append

@[simp] theorem allFields_optField {α : Type} {f : α → List Field} {o : Option α} :
    AllFields P (optField f o) ↔ P (.presence o.isSome) = true ∧ ∀ a ∈ o, AllFields P (f a) := by
  cases o <;> simp [optField]

@[simp] theorem allFields_listField {α : Type} {f : α → List Field} {l : List α} :
    AllFields P (listField f l) ↔ P (.listCount l.length) = true ∧ ∀ a ∈ l, AllFields P (f a) := by
  rw [listField, allFields_cons, AllFields, List.forall_mem_flatMap]
  rfl

/-- The reply of an answer, if it has one, carries only fields that pass a test. -/
def Answer.Shows (P : Field → Bool) (a : Answer) : Prop := ∀ rep, a.2 = some rep → AllFields P rep.body

@[simp] theorem answer_shows {s : State} {status : Status} {body : List Field} :
    Answer.Shows P (answer s status body) ↔ AllFields P body := by
  simp [Answer.Shows, answer]

theorem Answer.Shows.body {a : Answer} {s : State} {rep : Reply} (h : Answer.Shows P a) (ha : a = (s, some rep)) :
    AllFields P rep.body :=
  h rep (congrArg Prod.snd ha)

end

/-! ### What a locked port is shown (R59) -/

theorem figure_locked {p : Port} {t : Tab} {s : State} (h : lockedPort p t s = true) : figure p t s = fun _ => 0 := by
  funext n
  rw [figure, if_pos h]

theorem tabHeader_hides {p : Port} {t : Tab} {s : State} (h : lockedPort p t s = true) :
    AllFields Field.hidesMoney (tabHeader p t s) := by
  simp [tabHeader, figure_locked h, Field.hidesMoney]

theorem lineFields_hides {p : Port} {t : Tab} {s : State} (h : lockedPort p t s = true) (q : Nat × Line) :
    AllFields Field.hidesMoney (lineFields p t s q) := by
  simp [lineFields, figure_locked h, Field.hidesMoney]

theorem classFields_hides (v : Vector Nat 4) : AllFields Field.hidesMoney (classFields (fun _ => 0) v) := by
  simp [classFields, Field.hidesMoney]

theorem tenderFields_hides (t : Tender) : AllFields Field.hidesMoney (tenderFields (fun _ => 0) t) := by
  simp [tenderFields, Field.hidesMoney]

theorem shareFields_hides (sh : Share) : AllFields Field.hidesMoney (shareFields (fun _ => 0) sh) := by
  simp [shareFields, classFields_hides, tenderFields_hides, Field.hidesMoney]

theorem splitHeader_hides (t : Tab) (r : SplitRef) : AllFields Field.hidesMoney (splitHeader (fun _ => 0) t r) := by
  simp [splitHeader, totalsFields, classFields_hides, Field.hidesMoney]

theorem entryFields_hides {p : Port} {s : State} {e : Entry} (h : lockedPort p (s.tabNumbered e.tab) s = true) :
    AllFields Field.hidesMoney (entryFields p s e) := by
  simp [entryFields, figure_locked h, Field.hidesMoney]

/-- A port locked for a tab is locked for it once its request has restarted the claim (R161). -/
theorem lockedPort_named {p q : Port} {i : Slot} {t : Tab} {s : State} (h : lockedPort p t s = true) (u : Tab) :
    lockedPort p (t.named q) (s.setTab i u) = true := by
  rw [← h]
  cases p with
  | office => rfl
  | lane l =>
    rw [lockedPort, lockedPort, unlockedTill, Tab.named_pin, Tab.named_unlocked]
    rfl

/-- What a view shows a locked port: what its continuation shows on the tab with its claim restarted (R59, R161). -/
theorem withTab_hides {p : Port} {n : Nat} {i : Slot} {s : State} {k : Slot → State → Answer} (hi : s.findTab n = some i)
    (h : lockedPort p (s.tab i) s = true)
    (hk : ∀ u : State, lockedPort p (u.tab i) u = true → Answer.Shows Field.hidesMoney (k i u)) :
    Answer.Shows Field.hidesMoney (withTab p n s k) := by
  simp only [withTab_eq, hi]
  refine hk _ ?_
  rw [State.setTab_tab_self]
  exact lockedPort_named h _

theorem tabView_hides {p : Port} {f : TabPageFields} {i : Slot} {s : State} (hi : s.findTab f.tab = some i)
    (h : lockedPort p (s.tab i) s = true) : Answer.Shows Field.hidesMoney (tabView p f s) := by
  refine withTab_hides hi h fun u hu => ?_
  split
  · simp
  · simp [tabHeader_hides hu, lineFields_hides hu, Field.hidesMoney]

theorem shareView_hides {p : Port} {f : TabPageFields} {i : Slot} {s : State} (hi : s.findTab f.tab = some i)
    (h : lockedPort p (s.tab i) s = true) : Answer.Shows Field.hidesMoney (shareView p f s) := by
  refine withTab_hides hi h fun u hu => ?_
  dsimp only
  cases (u.tab i).split with
  | none => simp
  | some r =>
    dsimp only
    split
    · simp
    · simp [figure_locked hu, splitHeader_hides, shareFields_hides, Field.hidesMoney]

theorem approvalList_hides {p : Port} {start : Nat} {s : State}
    (h : ∀ e ∈ s.approvals, lockedPort p (s.tabNumbered e.tab) s = true) :
    Answer.Shows Field.hidesMoney (approvalList p start s) := by
  have hpage : ∀ e ∈ (s.approvals.drop start).take Config.approvalPage, AllFields Field.hidesMoney (entryFields p s e) :=
    fun e he => entryFields_hides (h e (List.mem_of_mem_drop (List.mem_of_mem_take he)))
  unfold approvalList
  split
  · simp
  split
  · simp
  · simpa [Field.hidesMoney] using hpage

/-! ### What a station's own requests answer (R60) -/

theorem lineContent_notMoney (t : Tab) (n : Nat) : AllFields Field.isNotMoney (lineContent t n) := by
  unfold lineContent
  split <;> simp [Field.isNotMoney]

theorem ticketContent_notMoney (s : State) (place : TicketState) (t : Ticket) :
    AllFields Field.isNotMoney (ticketContent s place t) := by
  simp [ticketContent, lineContent_notMoney, Field.isNotMoney]

theorem pushedField_notMoney (st : Station) : AllFields Field.isNotMoney (pushedField st) := by
  simp [pushedField, Field.isNotMoney]

theorem rail_notMoney (st : StationNo) (s : State) : Answer.Shows Field.isNotMoney (rail st () s) := by
  simp [rail, railPlace, ticketContent_notMoney, Field.isNotMoney]

theorem take_notMoney (st : StationNo) (s : State) : Answer.Shows Field.isNotMoney (take st () s) := by
  unfold take
  split
  · simp
  split
  · simp
  · simp [ticketContent_notMoney, pushedField_notMoney]

theorem resume_notMoney (st : StationNo) (s : State) : Answer.Shows Field.isNotMoney (resume st () s) := by
  unfold resume
  split
  · simp [ticketContent_notMoney]
  · simp

theorem recallTicket_notMoney (st : StationNo) (n : Nat) (s : State) :
    Answer.Shows Field.isNotMoney (recallTicket st n s) := by
  unfold recallTicket
  split
  · simp
  split
  · simp
  split
  · simp
  split
  · simp
  · simp [ticketContent_notMoney, pushedField_notMoney]

theorem stationView_notMoney (st : StationNo) (start : Nat) (s : State) :
    Answer.Shows Field.isNotMoney (stationView st start s) := by
  unfold stationView
  split
  · simp
  · simp [stationHeader, ticketContent_notMoney, Field.isNotMoney]

theorem bump_notMoney (st : StationNo) (s : State) : Answer.Shows Field.isNotMoney (bump st () s) := by
  unfold bump
  split
  · simp
  · simp [Field.isNotMoney]

theorem holdLow_notMoney (st : StationNo) (code : Nat) (s : State) : Answer.Shows Field.isNotMoney (holdLow st code s) := by
  unfold holdLow
  split <;> simp

theorem setWorking_notMoney (asked : StationState) (st : StationNo) (s : State) :
    Answer.Shows Field.isNotMoney (setWorking asked st s) := by
  unfold setWorking
  split
  · simp
  split <;> simp [Field.isNotMoney]

theorem pauseOrOpen_notMoney (asked : StationState) (l : Lane) (s : State) :
    Answer.Shows Field.isNotMoney (pauseOrOpen asked (.lane l) none s) := by
  simp only [pauseOrOpen]
  split
  · exact setWorking_notMoney asked _ s
  · simp

/-- Settles O60: every money figure of the two views and of the approval list is a `figure`, 0 for a locked port, and no station
block writes a field of money. -/
theorem lockedPortsSeeNoMoney : Obligations.LockedPortsSeeNoMoney := by
  refine ⟨fun l f i s s' rep hi hlocked hview => ?_, fun l start s s' rep hlist => ⟨fun e _ => entryFields_hides, fun hall => ?_⟩,
    fun st l n asked s s' rep hstation => ?_⟩
  · rcases hview with h | h
    · exact (tabView_hides hi hlocked).body h
    · exact (shareView_hides hi hlocked).body h
  · exact (approvalList_hides hall).body hlist
  · rcases hstation with h | h | h | h | h | h | h | h
    · exact (rail_notMoney st s).body h
    · exact (take_notMoney st s).body h
    · exact (resume_notMoney st s).body h
    · exact (recallTicket_notMoney st n s).body h
    · exact (stationView_notMoney st n s).body h
    · exact (bump_notMoney st s).body h
    · exact (holdLow_notMoney st n s).body h
    · exact (pauseOrOpen_notMoney asked l s).body h

end Sys2Proof.Machine
end

section
/-! SUPPORT. The requests of tab protection: UNLOCK (R52, R53), LOCK (R56), SET_PIN (R57) and CLEAR_LOCKOUT (R54, R55). -/

namespace Sys2Proof.Machine

/-! ### A till's request that replaces its tab's record -/

/-- A till's request that passes its checks and changes nothing but its tab's record, no event raised. -/
theorem serve_tab_quietly {α : Type} {k : Kind} {c : Codec α} {l : Lane} {tag : Nat} {fields : α} {n : Nat} {i : Slot}
    {missing : List Field} {block : Lane → α → State → Answer} {cont : Slot → State → Answer} {s : State} {u : Tab}
    {status : Status} {body : List Field} (h : tillReady l tag s = true) (hk : (senders k).till = true)
    (hi : s.findTab n = some i) (hw : ∀ u, block l fields u = withTab (.lane l) n u cont missing)
    (hb : cont i (s.naming l i) = answer ((s.naming l i).setTab i u) status body) :
    serveLane k c (.lane l) tag (.fields fields) block s
      = .next ((s.setTab i u).answered (.lane l) tag (kindCode k) status body nobody) :=
  serve_tab h hk hi hw (by rw [hb, naming_setTab, raised_nobody]) rfl rfl

/-- A till's request that passes its checks and replaces its tab's record, with TAB_CHANGED to the followers (R46). -/
theorem serve_tab_touching {α : Type} {k : Kind} {c : Codec α} {l : Lane} {tag : Nat} {fields : α} {n : Nat} {i : Slot}
    {missing : List Field} {block : Lane → α → State → Answer} {cont : Slot → State → Answer} {s : State} {u : Tab}
    {status : Status} {body : List Field} (h : tillReady l tag s = true) (hk : (senders k).till = true)
    (hi : s.findTab n = some i) (hw : ∀ u, block l fields u = withTab (.lane l) n u cont missing)
    (hb : cont i (s.naming l i) = answer (touch i ((s.naming l i).setTab i u)) status body) :
    serveLane k c (.lane l) tag (.fields fields) block s
      = .next ((s.setTab i u).answered (.lane l) tag (kindCode k) status body (toLanes .tabChanged u.followers)) :=
  serve_tab h hk hi hw (by rw [hb, naming_setTab, touch_eq, huntAgain_tab, State.setTab_tab_self]) rfl rfl

/-! ### UNLOCK (R52, R53) -/

theorem joinSet_eq (l : Lane) (ls : List Lane) : joinSet l ls = if l ∈ ls then ls else ls ++ [l] := by
  simp [joinSet]

/-- Settles O30: the right PIN, the third wrong one, and a wrong one before it. -/
theorem unlockCountsTries : Obligations.UnlockCountsTries := by
  intro l tag n pin tried i s hready hi hpin hrange htries
  have hrange' : ¬Config.maxPin < tried := Nat.not_lt.mpr hrange
  have hbelow : (s.tab i).wrongTries ≠ Config.lockoutTries := Nat.ne_of_lt htries
  simp only [← joinSet_eq, Tab.named_wrongTries]
  by_cases hright : tried = pin
  · rw [if_pos hright]
    refine serve_tab_quietly hready rfl hi (fun _ => rfl) ?_
    simp only [naming_tab, Tab.named_pin, Tab.named_wrongTries, hpin, hrange', hbelow, if_false, if_pos hright, unlockFields,
      Option.isSome_some]
  rw [if_neg hright]
  by_cases hthird : (s.tab i).wrongTries + 1 = 3
  · rw [if_pos hthird, if_pos hthird]
    refine serve_tab_touching hready rfl hi (fun _ => rfl) ?_
    have hlast : (s.tab i).wrongTries + 1 = Config.lockoutTries := hthird
    simp only [naming_tab, Tab.named_pin, Tab.named_wrongTries, hpin, hrange', hbelow, hright, if_false, if_pos hlast, unlockFields,
      Option.isSome_some]
  · rw [if_neg hthird, if_neg hthird]
    refine serve_tab_quietly hready rfl hi (fun _ => rfl) ?_
    have hmore : (s.tab i).wrongTries + 1 ≠ Config.lockoutTries := hthird
    simp only [naming_tab, Tab.named_pin, Tab.named_wrongTries, hpin, hrange', hbelow, hright, hmore, if_false, unlockFields,
      Option.isSome_some]

/-! ### LOCK (R56) -/

/-- Settles O31: no tab, the settle owner of a SETTLING tab, and any other requester. -/
theorem lockLeavesUnlockSet : Obligations.LockLeavesUnlockSet := by
  intro l tag n s hready
  refine ⟨fun hi => serve_no_tab hready rfl hi fun _ => rfl, fun i hi => ?_⟩
  dsimp only
  split
  · rename_i howner
    refine serve_tab_refused hready rfl hi (fun _ => rfl) ?_
    dsimp only
    rw [naming_tab, if_pos howner]
  · rename_i hother
    refine serve_tab_quietly hready rfl hi (fun _ => rfl) ?_
    dsimp only
    rw [naming_tab, if_neg hother]

/-! ### SET_PIN and CLEAR_LOCKOUT (R54, R55, R57) -/

theorem asksPinClear_iff {ask : Ask} : asksPinClear ask = true ↔ ask = .pinClear := by
  cases ask <;> simp [asksPinClear]

/-- SET_PIN that passes its checks (R57). -/
theorem setPin_passes {l : Lane} {tag n : Nat} {pin : Option Nat} {i : Slot} {s : State} (h : tillReady l tag s = true)
    (hi : s.findTab n = some i) (hpin : (s.tab i).pin = none ∨ l ∈ (s.tab i).unlocked) (hopen : (s.tab i).state = .opened)
    (htries : (s.tab i).wrongTries ≠ 3) (hrange : pinOk pin = true) :
    (let t := (s.tab i).named (.lane l)
     exec (.setPin (.lane l) tag (.fields ⟨n, pin⟩)) s = .next
      ((s.setTab i { t with pin := pin, unlocked := [l], wrongTries := 0 }).answered (.lane l) tag 0x0C .ok []
        (toLanes .tabChanged t.followers))) := by
  refine serve_tab_touching h rfl hi (fun _ => rfl) ?_
  have hunlocked := (naming_unlocked h i).mpr hpin
  have hnot : (s.tab i).wrongTries ≠ Config.lockoutTries := htries
  simp only [naming_tab, hunlocked, Tab.named_state, hopen, Tab.named_wrongTries, hnot, hrange, Bool.not_true, Bool.false_eq_true,
    if_false, ne_eq, not_true_eq_false]

/-- CLEAR_LOCKOUT by the token holder of a tab locked out, with no PIN_CLEAR waiting for it (R54, R55). -/
theorem clearLockout_holder {l : Lane} {tag n reason : Nat} {i : Slot} {s : State} (h : tillReady l tag s = true)
    (hi : s.findTab n = some i) (hreason : reason ≤ 15) (htries : (s.tab i).wrongTries = 3) (htoken : s.token = .lane l)
    (hnone : ∀ e ∈ s.approvals, e.tab ≠ ((s.tab i).named (.lane l)).number ∨ e.ask ≠ .pinClear) :
    (let t := (s.tab i).named (.lane l)
     exec (.clearLockout (.lane l) tag (.fields ⟨n, reason⟩)) s = .next
      ((s.setTab i { t with wrongTries := 0 }).answered (.lane l) tag 0x0D .ok [] (toLanes .tabChanged t.followers))) := by
  refine serve_tab_touching h rfl hi (fun _ => rfl) ?_
  have hreason' : ¬Config.maxReason < reason := Nat.not_lt.mpr hreason
  have hlocked : (s.tab i).wrongTries = Config.lockoutTries := htries
  have hwaiting : ((s.naming l i).approvals.any fun e =>
      e.tab = ((s.tab i).named (.lane l)).number && asksPinClear e.ask) = false := by
    rw [List.any_eq_false]
    intro e he
    simpa only [Bool.and_eq_true, decide_eq_true_eq, asksPinClear_iff, not_and_or] using hnone e he
  simp only [hreason', naming_tab, Tab.named_wrongTries, hlocked, hwaiting, Bool.false_eq_true, if_false, ne_eq,
    not_true_eq_false]
  rw [supervise_holder (s := s.naming l i) htoken, applyPinClear, State.modifyTab, naming_tab]

/-- Settles O32: SET_PIN and CLEAR_LOCKOUT past their checks; the restarted claim changes none of the figures they check (R161). -/
theorem pinAndLockout : Obligations.PinAndLockout := by
  intro l tag n i s hready hi t
  refine ⟨fun pin hpin hopen htries hrange => ?_, fun reason hreason htries htoken hnone => ?_⟩
  · rw [Tab.named_pin, Tab.named_unlocked] at hpin
    rw [Tab.named_state] at hopen
    rw [Tab.named_wrongTries] at htries
    exact setPin_passes hready hi hpin hopen htries (pinOk_iff.mpr hrange)
  · rw [Tab.named_wrongTries] at htries
    exact clearLockout_holder hready hi hreason htries htoken hnone

end Sys2Proof.Machine
end

section
/-! SUPPORT. FIRE before any change: the lines asked for, their partitions, and the tickets cut from them and placed (R69 to R72). -/

namespace Sys2Proof.Machine

/-! ### The lines asked for (R69) -/

/-- The lines of a tab that a FIRE asks for, each with its position. -/
def Tab.asked (groups : Option (List Nat)) (t : Tab) : List (Line × Nat) :=
  t.lines.zipIdx.filter fun q => q.1.state = .entered && (groups.elim true fun gs => gs.contains q.1.group.val)

/-- A line at a position with its line number, as the firing block keeps it. -/
def withNumber (q : Line × Nat) : Nat × Line := (q.2 + 1, q.1)

theorem firedLines_eq (t : Tab) (groups : Option (List Nat)) : firedLines t groups = (t.asked groups).map withNumber := by
  unfold firedLines Tab.numbered Tab.asked
  rw [List.filter_map]
  cases groups <;> rfl

theorem mem_asked {t : Tab} {groups : Option (List Nat)} {q : Line × Nat} :
    q ∈ t.asked groups ↔
      t.lines[q.2]? = some q.1 ∧ q.1.state = .entered ∧ ∀ gs, groups = some gs → q.1.group.val ∈ gs := by
  unfold Tab.asked
  rw [List.mem_filter, List.mem_zipIdx_iff_getElem?]
  cases groups <;> simp

theorem asked_ascending (t : Tab) (groups : Option (List Nat)) : (t.asked groups).Pairwise fun q r => q.2 < r.2 := by
  have h : (t.lines.zipIdx.map Prod.snd).Pairwise (· < ·) := by
    rw [List.zipIdx_map_snd]
    exact List.pairwise_lt_range'
  exact (List.pairwise_map.mp h).filter _

/-- The line numbers of one home station and group among the lines asked for (R70). -/
def partOf (asked : List (Line × Nat)) (h : StationNo) (g : GroupNo) : List Nat :=
  (asked.filter fun q => q.1.station = h && q.1.group = g).map fun q => q.2 + 1

theorem mem_partOf {asked : List (Line × Nat)} {h : StationNo} {g : GroupNo} {n : Nat} :
    n ∈ partOf asked h g ↔ ∃ q ∈ asked, q.1.station = h ∧ q.1.group = g ∧ q.2 + 1 = n := by
  simp [partOf, and_assoc]

theorem partOf_concat (asked : List (Line × Nat)) (q : Line × Nat) (h : StationNo) (g : GroupNo) :
    partOf (asked ++ [q]) h g = if q.1.station = h ∧ q.1.group = g then partOf asked h g ++ [q.2 + 1] else partOf asked h g := by
  unfold partOf
  split <;> simp [*]

/-! ### One line put into its partition (R70) -/

theorem filter_addToPartition_self {x : Nat × Line} {h : StationNo} {g : GroupNo} (hx : x.2.station = h ∧ x.2.group = g)
    (ps : List Partition) :
    (addToPartition x ps).filter (fun p => p.home = h && p.group = g)
      = addToPartition x (ps.filter fun p => p.home = h && p.group = g) := by
  obtain ⟨rfl, rfl⟩ := hx
  induction ps with
  | nil => simp [addToPartition]
  | cons p ps ih => by_cases h : p.home = x.2.station ∧ p.group = x.2.group <;> simp [addToPartition, h, ih]

theorem filter_addToPartition_other {x : Nat × Line} {h : StationNo} {g : GroupNo} (hne : ¬(x.2.station = h ∧ x.2.group = g))
    (ps : List Partition) :
    (addToPartition x ps).filter (fun p => p.home = h && p.group = g) = ps.filter fun p => p.home = h && p.group = g := by
  induction ps with
  | nil => simp [addToPartition, hne]
  | cons p ps ih =>
    by_cases hp : p.home = x.2.station ∧ p.group = x.2.group
    · obtain ⟨hs, hg⟩ := hp
      simp [addToPartition, hs, hg, hne]
    · simp [addToPartition, hp, List.filter_cons, ih]

/-- A line joins a partition behind its first line, or begins a partition behind all others. -/
theorem heads_addToPartition (x : Nat × Line) {ps : List Partition} (hne : ∀ p ∈ ps, p.lines ≠ []) :
    (addToPartition x ps).map (fun p => p.lines.headD 0) = ps.map (fun p => p.lines.headD 0)
      ∨ (addToPartition x ps).map (fun p => p.lines.headD 0) = ps.map (fun p => p.lines.headD 0) ++ [x.1] := by
  induction ps with
  | nil => exact .inr rfl
  | cons p ps ih =>
    rw [List.forall_mem_cons] at hne
    unfold addToPartition
    split
    · obtain ⟨n, ns, hp⟩ := List.exists_cons_of_ne_nil hne.1
      exact .inl (by simp [hp])
    · exact (ih hne.2).imp (congrArg (_ :: ·)) (congrArg (_ :: ·))

theorem find?_addToPartition (P : StationNo → Bool) (x : Nat × Line) (ps : List Partition) :
    ((addToPartition x ps).find? fun p => P p.home).map Partition.home
      = ((ps.find? fun p => P p.home).map Partition.home).or (if P x.2.station then some x.2.station else none) := by
  induction ps with
  | nil => cases h : P x.2.station <;> simp [addToPartition, h]
  | cons p ps ih =>
    unfold addToPartition
    split
    · rename_i hp
      cases h : P p.home <;> simp [h, ← hp.1]
    · cases h : P p.home <;> simp [h, ih]

/-! ### The partitions of the lines asked for (R70) -/

/-- The partitions of the lines asked for. -/
def partitionsOf (asked : List (Line × Nat)) : List Partition := partitions (asked.map withNumber)

theorem partitionsOf_concat (asked : List (Line × Nat)) (q : Line × Nat) :
    partitionsOf (asked ++ [q]) = addToPartition (withNumber q) (partitionsOf asked) := by
  simp [partitionsOf, partitions]

/-- Each home station and group among the lines asked for has one partition, of all its lines. -/
theorem filter_partitionsOf (asked : List (Line × Nat)) (h : StationNo) (g : GroupNo) :
    (partitionsOf asked).filter (fun p => p.home = h && p.group = g)
      = if partOf asked h g = [] then [] else [⟨h, g, partOf asked h g⟩] := by
  induction asked using List.reverseRecOn with
  | nil => rfl
  | append_singleton asked q ih =>
    rw [partitionsOf_concat, partOf_concat]
    by_cases hq : q.1.station = h ∧ q.1.group = g
    · rw [filter_addToPartition_self hq, ih, if_pos hq]
      obtain ⟨rfl, rfl⟩ := hq
      by_cases hnil : partOf asked q.1.station q.1.group = [] <;> simp [addToPartition, withNumber, hnil]
    · rw [filter_addToPartition_other hq, ih, if_neg hq]

/-- A partition holds the lines of its home station and group, one at least. -/
theorem partitionsOf_lines {asked : List (Line × Nat)} {p : Partition} (hp : p ∈ partitionsOf asked) :
    p.lines = partOf asked p.home p.group ∧ p.lines ≠ [] := by
  have hmem : p ∈ (partitionsOf asked).filter fun r => r.home = p.home && r.group = p.group := by simp [hp]
  rw [filter_partitionsOf] at hmem
  split at hmem
  · cases hmem
  · have hlines := congrArg Partition.lines (List.mem_singleton.mp hmem)
    exact ⟨hlines, hlines ▸ ‹_›⟩

/-- The lowest lines of the partitions stand in the order of the lines asked for. -/
theorem heads_partitionsOf (asked : List (Line × Nat)) :
    ((partitionsOf asked).map fun p => p.lines.headD 0).Sublist (asked.map fun q => q.2 + 1) := by
  induction asked using List.reverseRecOn with
  | nil => exact .slnil
  | append_singleton asked q ih =>
    rw [partitionsOf_concat, List.map_append]
    rcases heads_addToPartition (withNumber q) fun p hp => (partitionsOf_lines (asked := asked) hp).2 with e | e
    · exact e ▸ ih.trans (List.sublist_append_left _ _)
    · exact e ▸ ih.append (.refl _)

/-- The partitions stand in the order of their lowest lines (R70). -/
theorem partitionsOf_ordered {asked : List (Line × Nat)} (h : asked.Pairwise fun q r => q.2 < r.2) :
    (partitionsOf asked).Pairwise fun p r => p.lines.headD 0 ≤ r.lines.headD 0 := by
  refine List.pairwise_map.mp (List.Pairwise.sublist (heads_partitionsOf asked) (List.pairwise_map.mpr (h.imp ?_)))
  omega

/-- The first partition whose home station passes a test is that of the first line whose home station does. -/
theorem find?_partitionsOf (P : StationNo → Bool) (asked : List (Line × Nat)) :
    ((partitionsOf asked).find? fun p => P p.home).map Partition.home
      = (asked.find? fun q => P q.1.station).map fun q => q.1.station := by
  induction asked using List.reverseRecOn with
  | nil => rfl
  | append_singleton asked q ih =>
    rw [partitionsOf_concat, find?_addToPartition, ih, List.find?_append]
    cases hf : asked.find? fun q => P q.1.station with
    | some r => rfl
    | none => cases h : P q.1.station <;> simp [withNumber, h]

/-! ### Tickets of eight (R71) -/

theorem cutEights_flatten {fuel : Nat} {l : List Nat} (h : l.length ≤ fuel) : (cutEights fuel l).flatten = l := by
  induction fuel generalizing l with
  | zero => exact (List.length_eq_zero_iff.mp (Nat.le_zero.mp h)).symm
  | succ fuel ih =>
    unfold cutEights
    split
    · exact Eq.symm ‹_›
    · rw [List.flatten_cons, ih (by rw [List.length_drop, Config.ticketLines]; omega), List.take_append_drop]

theorem cutEights_length {fuel : Nat} {l : List Nat} (h : l.length ≤ fuel) : (cutEights fuel l).length = (l.length + 7) / 8 := by
  induction fuel generalizing l with
  | zero => simp [cutEights, Nat.le_zero.mp h]
  | succ fuel ih =>
    unfold cutEights
    split
    · subst_vars; rfl
    · rename_i hl
      have := List.length_pos_iff.mpr hl
      rw [List.length_cons, ih (by rw [List.length_drop, Config.ticketLines]; omega), List.length_drop, Config.ticketLines]
      omega

theorem cutEights_sizes {fuel : Nat} {l ns : List Nat} (h : ns ∈ cutEights fuel l) : 1 ≤ ns.length ∧ ns.length ≤ 8 := by
  induction fuel generalizing l with
  | zero => cases h
  | succ fuel ih =>
    unfold cutEights at h
    split at h
    · cases h
    · rename_i hl
      have := List.length_pos_iff.mpr hl
      rcases List.mem_cons.mp h with rfl | h
      · rw [List.length_take, Config.ticketLines]; omega
      · exact ih h

/-- Only the last ticket of a partition holds fewer than eight lines. -/
theorem cutEights_full {fuel : Nat} {l ns : List Nat} (h : ns ∈ (cutEights fuel l).dropLast) : ns.length = 8 := by
  induction fuel generalizing l with
  | zero => cases h
  | succ fuel ih =>
    unfold cutEights at h
    split at h
    · cases h
    cases hc : cutEights fuel (l.drop Config.ticketLines) with
    | nil => rw [hc] at h; cases h
    | cons c cs =>
      rw [hc, List.dropLast_cons_of_ne_nil (List.cons_ne_nil c cs), ← hc] at h
      rcases List.mem_cons.mp h with rfl | h
      · have hmore : l.drop Config.ticketLines ≠ [] := by
          rintro hnil
          rw [hnil] at hc
          cases fuel <;> simp [cutEights] at hc
        have := List.length_pos_iff.mpr hmore
        rw [List.length_drop, Config.ticketLines] at this
        rw [List.length_take, Config.ticketLines]
        omega
      · exact ih h

/-! ### Placement (R72) -/

theorem target_fst (s : State) (h : StationNo) :
    (s.target h).map Prod.fst
      = if takesTickets (s.station h) then some h
        else (s.station h).alternate.filter fun a => takesTickets (s.station a) := by
  unfold State.target
  split
  · rfl
  · cases (s.station h).alternate with
    | none => rfl
    | some a => cases hA : takesTickets (s.station a) <;> simp [Option.filter_some, hA]

/-- A ticket is rerouted exactly when its station is not its home station. -/
theorem target_rerouted {s : State} {h st : StationNo} {r : Bool} (ht : s.target h = some (st, r)) : r = decide (st ≠ h) := by
  unfold State.target at ht
  split at ht
  · obtain ⟨rfl, rfl⟩ := Prod.mk.inj (Option.some.inj ht)
    simp
  · split at ht
    · split at ht
      · obtain ⟨rfl, rfl⟩ := Prod.mk.inj (Option.some.inj ht)
        rename_i hclosed _ st _ hopen
        have hne : st ≠ h := fun e => hclosed (e ▸ hopen)
        simp [hne]
      · cases ht
    · cases ht

/-- The tickets of a partition at its target station, none when it has none. -/
def State.draftsAt (s : State) (p : Partition) : List Draft := (s.target p.home).elim [] (draftsOf p)

/-- A layout fails at the first partition that has no target, and otherwise is the tickets of each in turn. -/
theorem layOut_eq (s : State) (ps : List Partition) :
    layOut s ps =
      ((ps.find? fun p => (s.target p.home).isNone).map Partition.home).elim (.ok (ps.flatMap s.draftsAt)) .error := by
  induction ps with
  | nil => rfl
  | cons p ps ih =>
    unfold layOut
    rw [ih, List.flatMap_cons, State.draftsAt]
    cases ht : s.target p.home with
    | none => simp [ht]
    | some tg =>
      cases hf : ps.find? fun p => (s.target p.home).isNone <;> simp [ht, hf]

/-! ### The tickets of a request (R71 to R73) -/

/-- The tickets laid out for the lines asked for, in firing order. -/
def State.drafts (s : State) (asked : List (Line × Nat)) : List Draft := (partitionsOf asked).flatMap s.draftsAt

/-- A layout fails at the home station of the first line asked for that has no target. -/
theorem layOut_partitionsOf (s : State) (asked : List (Line × Nat)) :
    layOut s (partitionsOf asked) =
      ((asked.find? fun q => (s.target q.1.station).isNone).map fun q => q.1.station).elim (.ok (s.drafts asked)) .error := by
  rw [layOut_eq, find?_partitionsOf fun h => (s.target h).isNone]
  rfl

theorem mem_draftsAt {s : State} {p : Partition} {d : Draft} (h : d ∈ s.draftsAt p) :
    d.home = p.home ∧ d.group = p.group ∧ s.target d.home = some (d.station, d.rerouted) := by
  unfold State.draftsAt at h
  cases ht : s.target p.home with
  | none => simp [ht] at h
  | some tg =>
    rw [ht, Option.elim_some, draftsOf, List.mem_map] at h
    obtain ⟨ns, -, rfl⟩ := h
    exact ⟨rfl, rfl, ht⟩

/-- A ticket laid out stands at the target of its home station. -/
theorem drafts_target {s : State} {asked : List (Line × Nat)} {d : Draft} (h : d ∈ s.drafts asked) :
    s.target d.home = some (d.station, d.rerouted) := by
  obtain ⟨p, -, hd⟩ := List.mem_flatMap.mp h
  exact (mem_draftsAt hd).2.2

/-- The tickets stand in the order of the lowest lines of their partitions (R71). -/
theorem drafts_ordered {asked : List (Line × Nat)} (s : State) (h : asked.Pairwise fun q r => q.2 < r.2) :
    (s.drafts asked).Pairwise fun d e =>
      (partOf asked d.home d.group).headD 0 ≤ (partOf asked e.home e.group).headD 0 := by
  refine List.pairwise_flatMap.mpr ⟨fun p _ => List.pairwise_of_forall_mem_list fun d hd e he => ?_,
    (partitionsOf_ordered h).imp_of_mem fun hp hr hle d hd e he => ?_⟩
  · obtain ⟨hdh, hdg, -⟩ := mem_draftsAt hd
    obtain ⟨heh, heg, -⟩ := mem_draftsAt he
    rw [hdh, hdg, heh, heg]
  · obtain ⟨hdh, hdg, -⟩ := mem_draftsAt hd
    obtain ⟨heh, heg, -⟩ := mem_draftsAt he
    rwa [hdh, hdg, heh, heg, ← (partitionsOf_lines hp).1, ← (partitionsOf_lines hr).1]

/-- Of the tickets of a partition, those of a home station and group are all or none. -/
theorem filter_draftsAt (s : State) (p : Partition) (h : StationNo) (g : GroupNo) :
    (s.draftsAt p).filter (fun d => d.home = h && d.group = g)
      = if p.home = h ∧ p.group = g then s.draftsAt p else [] := by
  split
  · rename_i hp
    exact List.filter_eq_self.mpr fun d hd => by simp [mem_draftsAt hd, hp]
  · rename_i hp
    exact List.filter_eq_nil_iff.mpr fun d hd => by
      obtain ⟨hh, hg, -⟩ := mem_draftsAt hd
      simpa [hh, hg] using hp

/-- The tickets of a home station and group that can be placed hold its lines, cut into eights (R71). -/
theorem filter_drafts {s : State} {asked : List (Line × Nat)} (hall : ∀ q ∈ asked, s.target q.1.station ≠ none)
    (h : StationNo) (g : GroupNo) :
    ((s.drafts asked).filter fun d => d.home = h && d.group = g).map Draft.lines
      = cutEights (partOf asked h g).length (partOf asked h g) := by
  have hparts : (s.drafts asked).filter (fun d => d.home = h && d.group = g)
      = ((partitionsOf asked).filter fun p => p.home = h && p.group = g).flatMap s.draftsAt := by
    rw [State.drafts, List.filter_flatMap]
    simp only [filter_draftsAt]
    induction partitionsOf asked with
    | nil => rfl
    | cons p ps ih => by_cases hp : p.home = h ∧ p.group = g <;> simp [hp, ih]
  rw [hparts, filter_partitionsOf]
  split
  · rename_i hnil
    rw [hnil]
    rfl
  · rename_i hne
    obtain ⟨n, hn⟩ := List.exists_mem_of_ne_nil _ hne
    obtain ⟨q, hq, rfl, -, -⟩ := mem_partOf.mp hn
    obtain ⟨tg, ht⟩ := Option.ne_none_iff_exists'.mp (hall q hq)
    simp [State.draftsAt, ht, draftsOf, Function.comp_def]

/-- The lines of the tickets are the numbers of the lines asked for. -/
theorem mem_drafts_lines {s : State} {asked : List (Line × Nat)} (hall : ∀ q ∈ asked, s.target q.1.station ≠ none) {n : Nat} :
    (∃ d ∈ s.drafts asked, n ∈ d.lines) ↔ ∃ q ∈ asked, q.2 + 1 = n := by
  have hpart (h : StationNo) (g : GroupNo) :
      (∃ d ∈ s.drafts asked, (d.home = h ∧ d.group = g) ∧ n ∈ d.lines) ↔ n ∈ partOf asked h g := by
    rw [← cutEights_flatten (Nat.le_refl (partOf asked h g).length), ← filter_drafts hall]
    simp [and_assoc]
  constructor
  · rintro ⟨d, hd, hn⟩
    obtain ⟨q, hq, -, -, e⟩ := mem_partOf.mp ((hpart d.home d.group).mp ⟨d, hd, ⟨rfl, rfl⟩, hn⟩)
    exact ⟨q, hq, e⟩
  · rintro ⟨q, hq, e⟩
    obtain ⟨d, hd, -, hn⟩ := (hpart q.1.station q.1.group).mpr (mem_partOf.mpr ⟨q, hq, rfl, rfl, e⟩)
    exact ⟨d, hd, hn⟩

/-! ### How many tickets (R73) -/

/-- A figure of each home station and group, summed over all. -/
def overall (w : StationNo → GroupNo → Nat) : Nat := ((List.finRange 8).map fun h => ((List.finRange 8).map (w h)).sum).sum

theorem overall_eq (w : StationNo → GroupNo → Nat) : overall w = ∑ h, ∑ g, w h g := by
  simp only [overall, Fin.sum_univ_def]

/-- A list of tickets counted by home station and group. -/
theorem length_eq_overall (ds : List Draft) :
    ds.length = overall fun h g => (ds.filter fun d => d.home = h && d.group = g).length := by
  rw [overall_eq]
  induction ds with
  | nil => simp
  | cons d ds ih =>
    have hcons (h : StationNo) (g : GroupNo) : ((d :: ds).filter fun d => d.home = h && d.group = g).length
        = (if d.home = h then if d.group = g then 1 else 0 else 0) + (ds.filter fun d => d.home = h && d.group = g).length := by
      by_cases hh : d.home = h <;> by_cases hg : d.group = g <;> simp [hh, hg, Nat.add_comm]
    simp only [hcons, Finset.sum_add_distrib, ← ih, List.length_cons]
    simp [Finset.sum_ite_irrel, Nat.add_comm]

/-- The tickets that the lines of a home station and group are cut into. -/
def cutsOf (asked : List (Line × Nat)) (h : StationNo) (g : GroupNo) : Nat := ((partOf asked h g).length + 7) / 8

theorem length_filter_drafts {s : State} {asked : List (Line × Nat)} (hall : ∀ q ∈ asked, s.target q.1.station ≠ none)
    (h : StationNo) (g : GroupNo) :
    ((s.drafts asked).filter fun d => d.home = h && d.group = g).length = cutsOf asked h g := by
  rw [← List.length_map (f := Draft.lines), filter_drafts hall, cutEights_length (Nat.le_refl _), cutsOf]

/-- The number of tickets needed (R73). -/
theorem drafts_length {s : State} {asked : List (Line × Nat)} (hall : ∀ q ∈ asked, s.target q.1.station ≠ none) :
    (s.drafts asked).length = overall (cutsOf asked) := by
  rw [length_eq_overall]
  simp only [length_filter_drafts hall]

/-- The number of tickets needed at a station (R73). -/
theorem drafts_length_at {s : State} {asked : List (Line × Nat)} (hall : ∀ q ∈ asked, s.target q.1.station ≠ none)
    (b : StationNo) :
    ((s.drafts asked).filter fun d => d.station = b).length
      = overall fun h g => if (s.target h).map Prod.fst = some b then cutsOf asked h g else 0 := by
  rw [length_eq_overall]
  congr
  funext h g
  have hat {d : Draft} (hd : d ∈ s.drafts asked) (hh : d.home = h) : (s.target h).map Prod.fst = some d.station := by
    rw [← hh, drafts_target hd]; rfl
  rw [List.filter_filter]
  split
  · rename_i hb
    rw [← length_filter_drafts hall]
    congr 1
    refine List.filter_congr fun d hd => ?_
    by_cases hh : d.home = h
    · simp [Option.some.inj ((hat hd hh).symm.trans hb)]
    · simp [hh]
  · rename_i hb
    refine List.length_eq_zero_iff.mpr (List.filter_eq_nil_iff.mpr fun d hd => ?_)
    by_cases hh : d.home = h
    · have : d.station ≠ b := fun e => hb (e ▸ hat hd hh)
      simp [this]
    · simp [hh]

end Sys2Proof.Machine
end

section
/-! SUPPORT. The tickets of a FIRE created one after another: what each leaves in its station, its lines and their items (R66, R67,
R74 to R76, R14). -/

namespace Sys2Proof.Machine

/-! ### Items consumed (R14) -/

theorem Item.consume_eq (q : Nat) (it : Item) :
    it.consume q =
      { it with reserved := it.reserved - q, count := if it.mode = .limited then it.count - q else it.count } := by
  unfold Item.consume
  cases hm : it.mode <;> simp

theorem Item.consume_zero (it : Item) : it.consume 0 = it := by
  rw [Item.consume_eq]
  simp

theorem Item.consume_consume (p q : Nat) (it : Item) : (it.consume p).consume q = it.consume (p + q) := by
  by_cases hm : it.mode = .limited <;> simp [Item.consume_eq, Nat.sub_sub, hm]

/-! ### What a part of a FIRE changes -/

/-- What a part of the FIRE of a tab leaves: blocks other than catalogue, tab table, stations and the two counters as they were, of
the tabs the lines and the live count of one, which rises by the tickets created; of every item the quantity consumed of the lines
that are no longer ENTERED. -/
structure FirePart (i : Slot) (live : Nat) (s t : State) : Prop where
  part : t = { s with
    items := t.items, tabs := t.tabs, stations := t.stations, ticketCounter := t.ticketCounter, fireSeq := t.fireSeq }
  tabs : t.tabs = s.tabs.set i { s.tab i with lines := (t.tab i).lines, live := (s.tab i).live + live }
  items : ∀ m, ∃ q, t.item m = (s.item m).consume q ∧ (t.tab i).entered m + q = (s.tab i).entered m

theorem FirePart.tab {i : Slot} {live : Nat} {s t : State} (h : FirePart i live s t) :
    t.tab i = { s.tab i with lines := (t.tab i).lines, live := (s.tab i).live + live } :=
  (congrArg (fun x : Vector Tab 128 => x.get i) h.tabs).trans (get_set_self s.tabs i _)

theorem FirePart.refl (i : Slot) (s : State) : FirePart i 0 s s where
  part := rfl
  tabs := congrArg State.tabs (s.setTab_same i).symm
  items _ := ⟨0, (Item.consume_zero _).symm, rfl⟩

theorem FirePart.trans {i : Slot} {m n : Nat} {s t u : State} (h : FirePart i m s t) (h' : FirePart i n t u) :
    FirePart i (m + n) s u where
  part := by
    have e := h'.part
    rw [h.part] at e
    exact e
  tabs := by
    have hset (x y : Tab) : (s.tabs.set i x).set i y = s.tabs.set i y := congrArg State.tabs (s.setTab_setTab i x y)
    rw [h'.tabs, h.tab, h.tabs, hset, Nat.add_assoc]
  items k := by
    obtain ⟨p, hp, hep⟩ := h.items k
    obtain ⟨q, hq, heq⟩ := h'.items k
    exact ⟨p + q, by rw [hq, hp, Item.consume_consume], by omega⟩

/-! ### One line (R74) -/

/-- A line that a FIRE puts on a ticket: FIRED if it was ENTERED. -/
def Line.firedOn (number : Nat) (x : Line) : Line :=
  if x.state = .entered then { x with state := .fired, ticket := some number } else x

theorem Line.firedOn_entered {x : Line} (h : x.state = .entered) (number : Nat) :
    x.firedOn number = { x with state := .fired, ticket := some number } := if_pos h

theorem Line.firedOn_other {x : Line} (h : x.state ≠ .entered) (number : Nat) : x.firedOn number = x := if_neg h

/-- A line put on its ticket: nothing, for no ENTERED line, or the line FIRED and its quantity consumed. -/
theorem fireLine_cases (i : Slot) (number : Nat) (s : State) (n : Nat) :
    (fireLine i number s n = s ∧ ∀ x, (s.tab i).line? n = some x → x.state ≠ .entered)
      ∨ ∃ x, (s.tab i).line? n = some x ∧ x.state = .entered
        ∧ fireLine i number s n
          = (s.setItem x.item ((s.item x.item).consume x.quantity)).setTab i ((s.tab i).setLine n (x.firedOn number)) := by
  unfold fireLine
  cases hx : (s.tab i).line? n with
  | none => exact .inl ⟨rfl, nofun⟩
  | some x =>
    by_cases he : x.state = .entered
    · exact .inr ⟨x, rfl, he, by rw [Line.firedOn_entered he]; exact if_pos he⟩
    · exact .inl ⟨if_neg he, fun y hy => Option.some.inj hy ▸ he⟩

theorem fireLine_line (i : Slot) (number : Nat) (s : State) (n k : Nat) :
    ((fireLine i number s n).tab i).lines[k]?
      = (s.tab i).lines[k]?.map fun x => if k + 1 = n then x.firedOn number else x := by
  rcases fireLine_cases i number s n with ⟨e, hne⟩ | ⟨x, hx, -, e⟩
  · rw [e]
    cases hk : (s.tab i).lines[k]? with
    | none => rfl
    | some y =>
      rw [Option.map_some]
      split
      · rename_i hn
        rw [Line.firedOn_other (hne y (line?_eq.mpr ⟨by omega, by rw [← hn]; exact hk⟩))]
      · rfl
  · obtain ⟨h1, hx⟩ := line?_eq.mp hx
    rw [e, State.setTab_tab_self, Tab.setLine, List.getElem?_set]
    by_cases hk : k + 1 = n
    · have hk' : n - 1 = k := by omega
      rw [hk'] at hx
      rw [hk', if_pos rfl, if_pos (List.getElem?_eq_some_iff.mp hx).1, hx, Option.map_some, if_pos hk]
    · have hk' : n - 1 ≠ k := by omega
      simp [hk, hk']

/-- A line put on its ticket leaves stations and counters as they are. -/
theorem fireLine_frame (i : Slot) (number : Nat) (s : State) (n : Nat) :
    (fireLine i number s n).stations = s.stations ∧ (fireLine i number s n).ticketCounter = s.ticketCounter
      ∧ (fireLine i number s n).fireSeq = s.fireSeq := by
  rcases fireLine_cases i number s n with ⟨e, -⟩ | ⟨x, -, -, e⟩ <;> rw [e] <;> exact ⟨rfl, rfl, rfl⟩

theorem fireLine_part (i : Slot) (number : Nat) (s : State) (n : Nat) : FirePart i 0 s (fireLine i number s n) := by
  rcases fireLine_cases i number s n with ⟨e, -⟩ | ⟨x, hx, he, e⟩
  · rw [e]
    exact .refl i s
  · have htab : (fireLine i number s n).tab i = (s.tab i).setLine n (x.firedOn number) := by rw [e, State.setTab_tab_self]
    refine ⟨by rw [e]; rfl, ?_, fun m => ⟨x.held m, ?_, ?_⟩⟩
    · rw [htab, e]
      rfl
    · rw [e, State.setTab_item, State.setItem_item, Line.held_entered he]
      split
      · rename_i hm
        rw [if_pos hm.symm, hm]
      · rename_i hm
        rw [if_neg (Ne.symm hm), Item.consume_zero]
    · have hheld : (x.firedOn number).held m = 0 := Line.held_other (by simp [Line.firedOn_entered he]) m
      have hset := Tab.entered_set (y := x.firedOn number) hx (u := (fireLine i number s n).tab i) (congrArg Tab.lines htab) m
      rwa [hheld, Nat.add_zero] at hset

/-! ### The lines of one ticket (R74) -/

theorem fireLines_line (i : Slot) (number : Nat) (ns : List Nat) (s : State) (k : Nat) :
    ((ns.foldl (fireLine i number) s).tab i).lines[k]?
      = (s.tab i).lines[k]?.map fun x => if k + 1 ∈ ns then x.firedOn number else x := by
  have htwice (x : Line) : (x.firedOn number).firedOn number = x.firedOn number := by
    by_cases he : x.state = .entered <;> simp [Line.firedOn, he]
  induction ns generalizing s with
  | nil => simp
  | cons n ns ih =>
    rw [List.foldl_cons, ih, fireLine_line, Option.map_map]
    congr
    funext x
    by_cases hn : k + 1 = n <;> by_cases hns : k + 1 ∈ ns <;> simp [hn, hns, htwice]

theorem fireLines_frame (i : Slot) (number : Nat) (ns : List Nat) (s : State) :
    (ns.foldl (fireLine i number) s).stations = s.stations ∧ (ns.foldl (fireLine i number) s).ticketCounter = s.ticketCounter
      ∧ (ns.foldl (fireLine i number) s).fireSeq = s.fireSeq := by
  induction ns generalizing s with
  | nil => exact ⟨rfl, rfl, rfl⟩
  | cons n ns ih =>
    obtain ⟨hst, htc, hfs⟩ := fireLine_frame i number s n
    rw [List.foldl_cons, ← hst, ← htc, ← hfs]
    exact ih _

theorem fireLines_part (i : Slot) (number : Nat) (ns : List Nat) (s : State) :
    FirePart i 0 s (ns.foldl (fireLine i number) s) := by
  induction ns generalizing s with
  | nil => exact .refl i s
  | cons n ns ih => exact (fireLine_part i number s n).trans (ih _)

/-! ### One ticket (R66, R67, R75, R76) -/

/-- The ticket that a draft becomes, with the next number and the next fire sequence (R75). -/
def State.laid (i : Slot) (s : State) (d : Draft) : Ticket :=
  { number := s.nextTicket, tab := (s.tab i).number, home := d.home, rerouted := d.rerouted, group := d.group, seq := s.fireSeq
    firedAt := s.clock, late := startLate (s.station d.station), lateFlag := false, lines := d.lines }

/-- The ticket of a draft put in its station's queue, before its lines are fired (R66, R67, R76). -/
def State.joinedBy (i : Slot) (s : State) (d : Draft) : State :=
  { s with
    ticketCounter := nextNumber Config.maxTicketNumber s.nextTicket
    fireSeq := (s.fireSeq + 1) % Config.wrap32
    stations := s.stations.set d.station { s.station d.station with queue := (s.station d.station).queue ++ [s.laid i d] }
    tabs := s.tabs.set i { s.tab i with live := (s.tab i).live + 1 } }

theorem createTicket_eq (i : Slot) (s : State) (d : Draft) :
    createTicket i s d = d.lines.foldl (fireLine i s.nextTicket) (s.joinedBy i d) := rfl

theorem joinedBy_tab (i : Slot) (s : State) (d : Draft) :
    (s.joinedBy i d).tab i = { s.tab i with live := (s.tab i).live + 1 } := get_set_self s.tabs i _

theorem createTicket_part (i : Slot) (s : State) (d : Draft) : FirePart i 1 s (createTicket i s d) := by
  refine FirePart.trans (t := s.joinedBy i d) (m := 1) ⟨rfl, ?_, fun m => ⟨0, (Item.consume_zero _).symm, ?_⟩⟩
    (fireLines_part i s.nextTicket d.lines _)
  · rw [joinedBy_tab]
    rfl
  · rw [joinedBy_tab]
    rfl

theorem createTicket_line (i : Slot) (s : State) (d : Draft) (k : Nat) :
    ((createTicket i s d).tab i).lines[k]?
      = (s.tab i).lines[k]?.map fun x => if k + 1 ∈ d.lines then x.firedOn s.nextTicket else x := by
  rw [createTicket_eq, fireLines_line, joinedBy_tab]

theorem createTicket_station (i : Slot) (s : State) (d : Draft) (b : StationNo) :
    (createTicket i s d).station b =
      { s.station b with queue := (s.station b).queue ++ if d.station = b then [s.laid i d] else [] } := by
  have hstations : (createTicket i s d).station b = (s.joinedBy i d).station b := by
    rw [createTicket_eq, State.station, (fireLines_frame i _ _ _).1]
    rfl
  rw [hstations]
  refine (State.setStation_station s d.station b _).trans ?_
  by_cases h : b = d.station
  · simp [h]
  · simp [h, Ne.symm h]

theorem createTicket_counters (i : Slot) (s : State) (d : Draft) :
    (createTicket i s d).ticketCounter = nextNumber Config.maxTicketNumber s.nextTicket
      ∧ (createTicket i s d).fireSeq = (s.fireSeq + 1) % Config.wrap32 := by
  obtain ⟨-, htc, hfs⟩ := fireLines_frame i s.nextTicket d.lines (s.joinedBy i d)
  exact ⟨htc, hfs⟩

/-! ### Ticket numbers in use (R66) -/

theorem ticketInUse_iff {s : State} {n : Nat} : s.ticketInUse n = true ↔ s.numberOnTicket n := by
  simp [State.ticketInUse, State.numberOnTicket, Station.tickets, or_and_right, exists_or, or_assoc]

/-- The numbers in use after a ticket is created are those before it and its own. -/
theorem createTicket_inUse (i : Slot) (s : State) (d : Draft) (n : Nat) :
    (createTicket i s d).numberOnTicket n ↔ s.numberOnTicket n ∨ n = s.nextTicket := by
  unfold State.numberOnTicket
  simp only [createTicket_station]
  constructor
  · rintro ⟨st, y, hy, rfl⟩
    by_cases hst : d.station = st
    · simp only [hst, if_true, List.mem_append, List.mem_singleton] at hy
      by_cases hnew : y = s.laid i d
      · exact .inr (hnew ▸ rfl)
      · exact .inl ⟨st, y, by simpa [hnew, or_assoc] using hy, rfl⟩
    · exact .inl ⟨st, y, by simpa [hst] using hy, rfl⟩
  · rintro (⟨st, y, hy, rfl⟩ | rfl)
    · refine ⟨st, y, ?_, rfl⟩
      simp only [List.mem_append] at hy ⊢
      exact hy.imp_left (Or.imp_left (Or.imp_left .inl))
    · exact ⟨d.station, s.laid i d, by simp, rfl⟩

/-! ### The tickets of a request (R74 to R76) -/

/-- The tickets that a request creates, in firing order, each with its station. -/
def ticketsMade (i : Slot) : List Draft → State → List (StationNo × Ticket)
  | [], _ => []
  | d :: ds, s => (d.station, s.laid i d) :: ticketsMade i ds (createTicket i s d)

/-- What a created ticket has of its draft. -/
def draftOf (q : StationNo × Ticket) : Draft := ⟨q.2.home, q.2.group, q.1, q.2.rerouted, q.2.lines⟩

theorem ticketsMade_drafts (i : Slot) (ds : List Draft) (s : State) : (ticketsMade i ds s).map draftOf = ds := by
  induction ds generalizing s with
  | nil => rfl
  | cons d ds ih => exact congrArg (d :: ·) (ih _)

theorem ticketsMade_length (i : Slot) (ds : List Draft) (s : State) : (ticketsMade i ds s).length = ds.length := by
  conv_rhs => rw [← ticketsMade_drafts i ds s, List.length_map]

theorem ticketsMade_filter_map {α : Type} (i : Slot) (ds : List Draft) (s : State) (p : Draft → Bool) (f : Draft → α) :
    ((ticketsMade i ds s).filter fun q => p (draftOf q)).map (fun q => f (draftOf q)) = (ds.filter p).map f := by
  conv_rhs => rw [← ticketsMade_drafts i ds s, List.filter_map, List.map_map]
  rfl

/-- The numbers and stations that the reply lists (R77). -/
theorem createTickets_reply (i : Slot) (ds : List Draft) (s : State) :
    (createTickets i ds s).2 = (ticketsMade i ds s).map fun q => (q.2.number, q.1) := by
  induction ds generalizing s with
  | nil => rfl
  | cons d ds ih => exact congrArg ((s.nextTicket, d.station) :: ·) (ih _)

theorem createTickets_part (i : Slot) (ds : List Draft) (s : State) : FirePart i ds.length s (createTickets i ds s).1 := by
  induction ds generalizing s with
  | nil => exact .refl i s
  | cons d ds ih =>
    rw [List.length_cons, Nat.add_comm]
    exact (createTicket_part i s d).trans (ih _)

/-- The tickets stand at the end of their stations' queues, in firing order (R76). -/
theorem createTickets_station (i : Slot) (ds : List Draft) (s : State) (b : StationNo) :
    (createTickets i ds s).1.station b =
      { s.station b with
        queue := (s.station b).queue ++ ((ticketsMade i ds s).filter fun q => q.1 = b).map Prod.snd } := by
  induction ds generalizing s with
  | nil => simp [createTickets, ticketsMade]
  | cons d ds ih =>
    rw [createTickets, ih, createTicket_station, ticketsMade]
    by_cases h : d.station = b <;> simp [h]

theorem createTickets_fireSeq (i : Slot) (ds : List Draft) {s : State} (h : s.fireSeq < 4294967296) :
    (createTickets i ds s).1.fireSeq = (s.fireSeq + ds.length) % 4294967296 := by
  induction ds generalizing s with
  | nil => exact (Nat.mod_eq_of_lt h).symm
  | cons d ds ih =>
    have hseq : (createTicket i s d).fireSeq = (s.fireSeq + 1) % 4294967296 := (createTicket_counters i s d).2
    rw [createTickets, ih (by omega), hseq, List.length_cons]
    omega

/-- A created ticket but for its number (R67, R75): tab, clock and threshold are those before the request, the fire sequence counts
on from its counter. -/
theorem ticketsMade_ticket (i : Slot) (ds : List Draft) {s : State} (h : s.fireSeq < 4294967296) {k : Nat}
    {q : StationNo × Ticket} (hq : (ticketsMade i ds s)[k]? = some q) :
    q.2 =
      { number := q.2.number, tab := (s.tab i).number, home := q.2.home, rerouted := q.2.rerouted, group := q.2.group
        seq := (s.fireSeq + k) % 4294967296, firedAt := s.clock, late := startLate (s.station q.1), lateFlag := false
        lines := q.2.lines } := by
  induction ds generalizing s k with
  | nil => cases hq
  | cons d ds ih =>
    cases k with
    | zero =>
      cases hq
      simp [State.laid, Nat.mod_eq_of_lt h]
    | succ k =>
      have hpart := createTicket_part i s d
      have hseq : (createTicket i s d).fireSeq = (s.fireSeq + 1) % 4294967296 := (createTicket_counters i s d).2
      have htab : ((createTicket i s d).tab i).number = (s.tab i).number := (congrArg Tab.number hpart.tab :)
      have hclock : (createTicket i s d).clock = s.clock := (congrArg State.clock hpart.part :)
      have hlate (b : StationNo) : startLate ((createTicket i s d).station b) = startLate (s.station b) := by
        rw [createTicket_station]; rfl
      have e := ih (s := createTicket i s d) (by omega) hq
      rw [htab, hclock, hlate, hseq, Nat.mod_add_mod, Nat.add_assoc, Nat.add_comm 1] at e
      exact e

/-- Counting on from the next number is counting on one more. -/
theorem nextNumber_offset {top n : Nat} (h1 : 1 ≤ n) (h2 : n ≤ top) (k : Nat) :
    (nextNumber top n - 1 + k) % top = (n - 1 + (k + 1)) % top := by
  unfold nextNumber
  split
  · congr 1
    omega
  · rw [show n - 1 + (k + 1) = k + top by omega, Nat.add_mod_right, Nat.sub_self, Nat.zero_add]

/-- The tickets are numbered from the counter on where those numbers are free (R66). -/
theorem ticketsMade_number (i : Slot) (ds : List Draft) {s : State} (h1 : 1 ≤ s.ticketCounter) (h2 : s.ticketCounter ≤ 65535)
    (hlen : ds.length ≤ 65535) (hfree : ∀ k, k < ds.length → ¬s.numberOnTicket ((s.ticketCounter - 1 + k) % 65535 + 1))
    {k : Nat} {q : StationNo × Ticket} (hq : (ticketsMade i ds s)[k]? = some q) :
    q.2.number = (s.ticketCounter - 1 + k) % 65535 + 1 := by
  induction ds generalizing s k with
  | nil => cases hq
  | cons d ds ih =>
    rw [List.length_cons] at hlen hfree
    have hfirst : (s.ticketCounter - 1 + 0) % 65535 + 1 = s.ticketCounter := by omega
    have hnext : s.nextTicket = s.ticketCounter := by
      refine firstUnused_self (Bool.eq_false_iff.mpr fun hu => hfree 0 (Nat.succ_pos _) ?_)
      rw [hfirst]
      exact ticketInUse_iff.mp hu
    cases k with
    | zero =>
      cases hq
      exact hnext.trans hfirst.symm
    | succ k =>
      have hcounter : (createTicket i s d).ticketCounter = nextNumber 65535 s.ticketCounter :=
        hnext ▸ (createTicket_counters i s d).1
      have hoffset := nextNumber_offset h1 h2
      have hrange : 1 ≤ nextNumber 65535 s.ticketCounter ∧ nextNumber 65535 s.ticketCounter ≤ 65535 := by
        unfold nextNumber; split <;> omega
      have e := ih (s := createTicket i s d) (hcounter ▸ hrange.1) (hcounter ▸ hrange.2) (by omega) (fun j hj => ?_) hq
      · rw [e, hcounter, hoffset]
      · rw [hcounter, hoffset, createTicket_inUse, hnext, not_or]
        exact ⟨hfree (j + 1) (by omega), by omega⟩

/-- A line after a request (R74): FIRED with the number of a ticket that holds it, or as it was when it was not ENTERED or no ticket
holds it. -/
theorem createTickets_line (i : Slot) (ds : List Draft) {s : State} {k : Nat} {x : Line} (hx : (s.tab i).lines[k]? = some x) :
    ∃ y, ((createTickets i ds s).1.tab i).lines[k]? = some y
      ∧ if x.state = .entered ∧ ∃ d ∈ ds, k + 1 ∈ d.lines then
          ∃ r ∈ ticketsMade i ds s, k + 1 ∈ r.2.lines ∧ y = { x with state := .fired, ticket := some r.2.number }
        else y = x := by
  induction ds generalizing s x with
  | nil => exact ⟨x, hx, by simp⟩
  | cons d ds ih =>
    have hline := createTicket_line i s d k
    rw [hx, Option.map_some] at hline
    obtain ⟨y, hy, hcase⟩ := ih hline
    refine ⟨y, hy, ?_⟩
    by_cases he : x.state = .entered
    · by_cases hd : k + 1 ∈ d.lines
      · simp only [hd, Line.firedOn_entered he, if_true] at hcase
        rw [if_pos ⟨he, d, by simp, hd⟩]
        have hy' : y = { x with state := .fired, ticket := some s.nextTicket } := by simpa using hcase
        exact ⟨_, List.mem_cons_self, hd, hy'⟩
      · simp only [hd, if_false, he, true_and] at hcase
        simp only [he, true_and, List.exists_mem_cons_iff, hd, false_or]
        split at hcase
        · rename_i hds
          obtain ⟨r, hr, hk, e⟩ := hcase
          rw [if_pos hds]
          exact ⟨r, List.mem_cons_of_mem _ hr, hk, e⟩
        · rename_i hds
          rwa [if_neg hds]
    · simp only [Line.firedOn_other he, ite_self, he, false_and, if_false] at hcase ⊢
      exact hcase

theorem createTickets_lines_length (i : Slot) (ds : List Draft) (s : State) :
    ((createTickets i ds s).1.tab i).lines.length = (s.tab i).lines.length := by
  induction ds generalizing s with
  | nil => rfl
  | cons d ds ih =>
    rw [createTickets, ih]
    have h (k : Nat) : ((createTicket i s d).tab i).lines.length ≤ k ↔ (s.tab i).lines.length ≤ k := by
      rw [← List.getElem?_eq_none_iff, ← List.getElem?_eq_none_iff, createTicket_line, Option.map_eq_none_iff]
    exact Nat.le_antisymm ((h _).mpr (Nat.le_refl _)) ((h _).mp (Nat.le_refl _))

end Sys2Proof.Machine
end

section
/-! SUPPORT. What a FIRE answers: its refusals in their order, and the whole fire (R68, R69, R72 to R77). -/

namespace Sys2Proof.Machine

/-! ### FIRE past its checks of tab and groups -/

/-- What a FIRE makes of the lines asked for (R69, R72 to R77). -/
def fireAsked (i : Slot) (asked : List (Line × Nat)) (s : State) : Answer :=
  if asked = [] then answer s .ok [Field.number 0, Field.listCount 0]
  else
    match layOut s (partitionsOf asked) with
    | .error home => answer s .noStation [Field.small home.val]
    | .ok ds =>
      if s.poolFree < ds.length then answer s .ticketsFull [Field.number ds.length, Field.number s.poolFree]
      else
        match overfull s ds with
        | some st => answer s .queueFull [Field.small st.val, Field.number (s.station st).queue.length]
        | none => fireDrafts i ds s

/-- A FIRE is one refusal of its tab or of its groups, or what it makes of the lines asked for (R68). -/
theorem fire_eq (l : Lane) (f : FireFields) (s : State) :
    fire l f s = withTab (.lane l) f.tab s fun i s =>
      if !unlockedTill l (s.tab i) s then answer s .locked
      else if (s.tab i).state ≠ .opened then answer s (notOpen (s.tab i).state)
      else if !groupsOk f.groups then answer s .badField
      else fireAsked i ((s.tab i).asked f.groups) s := by
  unfold fire
  congr
  funext i s
  simp only [firedLines_eq, List.map_eq_nil_iff, fireAsked, partitionsOf] <;> rfl

section
variable {i : Slot} {asked : List (Line × Nat)} {s : State}

theorem fireAsked_noStation {q : Line × Nat} (hq : asked.find? (fun q => (s.target q.1.station).isNone) = some q) :
    fireAsked i asked s = answer s .noStation [Field.small q.1.station.val] := by
  have hne : asked ≠ [] := by rintro rfl; cases hq
  rw [fireAsked, if_neg hne, layOut_partitionsOf, hq]
  rfl

variable (hne : asked ≠ []) (hall : ∀ q ∈ asked, s.target q.1.station ≠ none)
include hall

theorem layOut_placed : layOut s (partitionsOf asked) = .ok (s.drafts asked) := by
  have hfind : asked.find? (fun q => (s.target q.1.station).isNone) = none := by simpa using hall
  rw [layOut_partitionsOf, hfind]
  rfl

include hne

theorem fireAsked_ticketsFull (h : s.poolFree < overall (cutsOf asked)) :
    fireAsked i asked s = answer s .ticketsFull [Field.number (overall (cutsOf asked)), Field.number s.poolFree] := by
  rw [← drafts_length hall] at h ⊢
  rw [fireAsked, if_neg hne, layOut_placed hall]
  exact if_pos h

theorem fireAsked_queueFull {b : StationNo} (h : overall (cutsOf asked) ≤ s.poolFree) (hb : overfull s (s.drafts asked) = some b) :
    fireAsked i asked s = answer s .queueFull [Field.small b.val, Field.number (s.station b).queue.length] := by
  rw [← drafts_length hall] at h
  rw [fireAsked, if_neg hne, layOut_placed hall]
  simp only [Nat.not_lt.mpr h, if_false, hb]

theorem fireAsked_fires (h : overall (cutsOf asked) ≤ s.poolFree) (hb : overfull s (s.drafts asked) = none) :
    fireAsked i asked s = fireDrafts i (s.drafts asked) s := by
  rw [← drafts_length hall] at h
  rw [fireAsked, if_neg hne, layOut_placed hall]
  simp only [Nat.not_lt.mpr h, if_false, hb]

end

/-- What a FIRE makes of the lines asked for: no change, or the tickets of all of them, each with a target. -/
theorem fireAsked_cases (i : Slot) (asked : List (Line × Nat)) (s : State) :
    (fireAsked i asked s).1 = s
      ∨ (∀ q ∈ asked, s.target q.1.station ≠ none) ∧ fireAsked i asked s = fireDrafts i (s.drafts asked) s := by
  by_cases hne : asked = []
  · exact .inl (by rw [fireAsked, if_pos hne]; rfl)
  cases hfind : asked.find? fun q => (s.target q.1.station).isNone with
  | some q => exact .inl (by rw [fireAsked_noStation hfind]; rfl)
  | none =>
    have hall : ∀ q ∈ asked, s.target q.1.station ≠ none := by simpa using hfind
    rcases Nat.lt_or_ge s.poolFree (overall (cutsOf asked)) with h | h
    · exact .inl (by rw [fireAsked_ticketsFull hne hall h]; rfl)
    cases hb : overfull s (s.drafts asked) with
    | some b => exact .inl (by rw [fireAsked_queueFull hne hall h hb]; rfl)
    | none => exact .inr ⟨hall, fireAsked_fires hne hall h hb⟩

/-! ### The fire (R74 to R77) -/

/-- The stations that receive a ticket, in order. -/
def receivers (ds : List Draft) : List StationNo := allStations.filter fun st => ds.any fun d => d.station = st

theorem mem_receivers {ds : List Draft} {b : StationNo} : b ∈ receivers ds ↔ ∃ d ∈ ds, d.station = b := by
  simp [receivers, allStations]

theorem fireDrafts_eq (i : Slot) (ds : List Draft) (s : State) :
    fireDrafts i ds s = answer
      (((createTickets i ds s).1.withRails (receivers ds)).raised
        (both (toLanes .tabChanged (s.tab i).followers)
          (toLanes .railChanged (railPorts (receivers ds) (createTickets i ds s).1))))
      .ok
      ([Field.number ds.length, Field.listCount ds.length]
        ++ (ticketsMade i ds s).flatMap fun q => [Field.ident q.2.number, Field.small q.1.val]) := by
  have hnodup : (receivers ds).Nodup := allStations_nodup.filter _
  have hfollowers : ((createTickets i ds s).1.tab i).followers = (s.tab i).followers :=
    (congrArg Tab.followers (createTickets_part i ds s).tab :)
  refine answer_congr ?_ rfl ?_
  · change touch i (recomputeRails (receivers ds) (createTickets i ds s).1) = _
    rw [touch_eq, recomputeRails_eq hnodup, raised_raised, both_comm]
    exact congrArg (fun ls => State.raised (both (toLanes .tabChanged ls) _) _) hfollowers
  · rw [createTickets_reply, listField, List.length_map, ticketsMade_length, List.flatMap_map]
    rfl

theorem fireDrafts_tab (i : Slot) (ds : List Draft) (s : State) :
    (fireDrafts i ds s).1.tab i = (createTickets i ds s).1.tab i := by
  rw [fireDrafts_eq]
  rfl

/-- A line of the tab after the fire of the lines asked for (R74). -/
theorem fired_line {i : Slot} {groups : Option (List Nat)} {s : State}
    (hall : ∀ q ∈ (s.tab i).asked groups, s.target q.1.station ≠ none) {k : Nat} {x : Line}
    (hx : (s.tab i).lines[k]? = some x) :
    (let ds := s.drafts ((s.tab i).asked groups)
     ∃ y, ((createTickets i ds s).1.tab i).lines[k]? = some y
      ∧ if (x, k) ∈ (s.tab i).asked groups then
          ∃ r ∈ ticketsMade i ds s, k + 1 ∈ r.2.lines ∧ y = { x with state := .fired, ticket := some r.2.number }
        else y = x) := by
  intro ds
  obtain ⟨y, hy, hcase⟩ := createTickets_line i ds hx
  refine ⟨y, hy, ?_⟩
  have hiff : (x, k) ∈ (s.tab i).asked groups ↔ x.state = .entered ∧ ∃ d ∈ ds, k + 1 ∈ d.lines := by
    rw [mem_drafts_lines hall]
    constructor
    · exact fun h => ⟨(mem_asked.mp h).2.1, _, h, rfl⟩
    · rintro ⟨-, ⟨z, j⟩, hq, e⟩
      obtain rfl : j = k := Nat.succ.inj e
      have hz := (mem_asked.mp hq).1
      rw [hx] at hz
      exact Option.some.inj hz ▸ hq
  rwa [if_congr hiff rfl rfl]

/-- What ENTERED lines hold of an item, with some of them fired (R2, R14). -/
theorem sum_held_fired (m : ItemNo) {chosen : Line × Nat → Bool} (hchosen : ∀ q, chosen q = true → q.1.state = .entered)
    (qs : List (Line × Nat)) :
    (qs.map fun q => if chosen q then 0 else q.1.held m).sum
        + (((qs.filter chosen).filter fun q => q.1.item = m).map fun q => q.1.quantity).sum
      = (qs.map fun q => q.1.held m).sum := by
  induction qs with
  | nil => rfl
  | cons q qs ih =>
    cases h : chosen q with
    | false =>
      simp only [List.map_cons, List.sum_cons, h, Bool.false_eq_true, if_false, List.filter_cons]
      omega
    | true =>
      have hheld := Line.held_entered (hchosen q h) m
      by_cases hm : q.1.item = m <;>
        simp only [List.map_cons, List.sum_cons, h, if_true, List.filter_cons, hheld, hm, decide_true, decide_false,
          Bool.false_eq_true, if_false] <;>
        omega

/-- The quantities consumed are those of the lines asked for (R14, R74). -/
theorem entered_of_fired {groups : Option (List Nat)} {t u : Tab} (hlen : u.lines.length = t.lines.length)
    (h : ∀ k x, t.lines[k]? = some x → ∃ y, u.lines[k]? = some y
      ∧ if (x, k) ∈ t.asked groups then y.state ≠ .entered else y = x) (m : ItemNo) :
    u.entered m + (((t.asked groups).filter fun q => q.1.item = m).map fun q => q.1.quantity).sum = t.entered m := by
  let chosen (q : Line × Nat) : Bool := q.1.state = .entered && (groups.elim true fun gs => gs.contains q.1.group.val)
  have hmem {k : Nat} {x : Line} (hx : t.lines[k]? = some x) : (x, k) ∈ t.asked groups ↔ chosen (x, k) = true := by
    rw [Tab.asked, List.mem_filter, List.mem_zipIdx_iff_getElem?]
    exact and_iff_right hx
  have hlines : u.lines.map (Line.held m) = t.lines.zipIdx.map fun q => if chosen q then 0 else q.1.held m := by
    refine List.ext_getElem? fun k => ?_
    rw [List.getElem?_map, List.getElem?_map, List.getElem?_zipIdx]
    cases hx : t.lines[k]? with
    | none => simpa [hlen] using hx
    | some x =>
      obtain ⟨y, hy, hcase⟩ := h k x hx
      rw [if_congr (hmem hx) rfl rfl] at hcase
      simp only [hy, Option.map_some, Nat.zero_add]
      split at hcase
      · simp [Line.held_other hcase, *]
      · simp [*]
  have hall : t.lines.map (Line.held m) = t.lines.zipIdx.map fun q => q.1.held m := by
    conv_lhs => rw [← List.zipIdx_map_fst 0 t.lines, List.map_map]
    rfl
  rw [Tab.entered_eq, Tab.entered_eq, hlines, hall]
  exact sum_held_fired m (fun q hq => of_decide_eq_true (Bool.and_eq_true_iff.mp hq).1) _

/-! ### Whole or not at all (R68, R74) -/

theorem asked_named (groups : Option (List Nat)) (p : Port) (t : Tab) : (t.named p).asked groups = t.asked groups := by
  rw [Tab.asked, Tab.named_lines]
  rfl

/-- After a FIRE the lines of its tab are as they were, or those asked for are FIRED and the others as they were. -/
theorem fire_lines {l : Lane} {f : FireFields} {i : Slot} {s : State} (hi : s.findTab f.tab = some i) :
    ((fire l f s).1.tab i).lines = (s.tab i).lines
      ∨ ((fire l f s).1.tab i).lines.length = (s.tab i).lines.length
        ∧ ∀ k x, (s.tab i).lines[k]? = some x → ∃ y, ((fire l f s).1.tab i).lines[k]? = some y
          ∧ if (x, k) ∈ (s.tab i).asked f.groups then
              y = { x with state := .fired, ticket := y.ticket } ∧ y.ticket ≠ none
            else y = x := by
  let u := s.setTab i ((s.tab i).named (.lane l))
  have hlines : (u.tab i).lines = (s.tab i).lines := by rw [State.setTab_tab_self, Tab.named_lines]
  have hasked : (u.tab i).asked f.groups = (s.tab i).asked f.groups := by rw [State.setTab_tab_self, asked_named]
  rw [fire_eq, withTab_eq, hi]
  dsimp only
  split
  · exact .inl hlines
  split
  · exact .inl hlines
  split
  · exact .inl hlines
  rcases fireAsked_cases i ((u.tab i).asked f.groups) u with e | ⟨hall, e⟩
  · exact .inl (e ▸ hlines)
  · right
    rw [e, fireDrafts_tab, ← hlines, ← hasked]
    refine ⟨createTickets_lines_length i _ u, fun k x hx => ?_⟩
    obtain ⟨y, hy, hcase⟩ := fired_line hall hx
    refine ⟨y, hy, ?_⟩
    split at hcase
    · obtain ⟨r, -, -, rfl⟩ := hcase
      rw [if_pos ‹_›]
      exact ⟨rfl, nofun⟩
    · rwa [if_neg ‹_›]

/-- A FIRE that answers leaves the lines of its tab as they were, or fires exactly the ENTERED lines of the groups asked for. -/
theorem execFire_whole {l : Lane} {tag : Nat} {f : FireFields} {i : Slot} {s t : State} (hi : s.findTab f.tab = some i)
    (ht : exec (.fire (.lane l) tag (.fields f)) s = .next t) :
    (t.tab i).lines = (s.tab i).lines
      ∨ (t.tab i).lines.length = (s.tab i).lines.length
        ∧ ∀ (k : Nat) (x : Line), (s.tab i).lines[k]? = some x → ∃ y, (t.tab i).lines[k]? = some y
          ∧ if x.state = .entered ∧ (∀ gs, f.groups = some gs → x.group.val ∈ gs) then
              y = { x with state := .fired, ticket := y.ticket } ∧ y.ticket ≠ none
            else y = x := by
  obtain ⟨t', ht', hcases⟩ := serve_cases .fire fireCodec (.lane l) tag (.fields f) (fun fields s => fire l fields s) s
  obtain rfl : t = t' := Host.Outcome.next.inj (ht.symm.trans ht')
  rcases hcases with h | ⟨fields, u, hf, -, hu, h⟩
  · exact .inl (congrArg Tab.lines (State.tab_congr (same_samePart h).tabs i))
  obtain rfl : f = fields := Body.fields.inj hf
  have hutab (j : Slot) : u.tab j = s.tab j := State.tab_congr (same_samePart hu).tabs j
  have hbears (j : Slot) : u.bears j f.tab = s.bears j f.tab := by rw [State.bears, hutab, State.bears]
  have hlines := fire_lines (l := l) ((findTab_congr hbears).trans hi)
  rw [hutab, ← State.tab_congr (same_samePart h).tabs i] at hlines
  refine hlines.imp_right fun ⟨hlen, hline⟩ => ⟨hlen, fun k x hx => ?_⟩
  obtain ⟨y, hy, hcase⟩ := hline k x hx
  refine ⟨y, hy, ?_⟩
  rwa [if_congr (mem_asked.trans (and_iff_right hx)) rfl rfl] at hcase

/-! ### The request at its block -/

@[simp] theorem naming_station (l : Lane) (i : Slot) (s : State) (b : StationNo) : (s.naming l i).station b = s.station b := by
  simp [State.naming]

@[simp] theorem naming_target (l : Lane) (i : Slot) (s : State) (h : StationNo) : (s.naming l i).target h = s.target h := by
  simp [State.target]

@[simp] theorem naming_poolFree (l : Lane) (i : Slot) (s : State) : (s.naming l i).poolFree = s.poolFree := by
  simp [State.poolFree, State.occupancy]

theorem naming_drafts (l : Lane) (i : Slot) (s : State) (asked : List (Line × Nat)) :
    (s.naming l i).drafts asked = s.drafts asked := by
  have h : (s.naming l i).draftsAt = s.draftsAt := funext fun p => by rw [State.draftsAt, naming_target]; rfl
  rw [State.drafts, h, State.drafts]

theorem groupsOk_iff {groups : Option (List Nat)} :
    groupsOk groups = true ↔ ∀ gs, groups = some gs → gs.length ≤ 8 ∧ ∀ g ∈ gs, g ≤ 7 := by
  cases groups <;> simp [groupsOk]

section
variable {l : Lane} {tag : Nat} {f : FireFields} {i : Slot} {s : State} (hready : tillReady l tag s = true)
  (hi : s.findTab f.tab = some i) (hpin : (s.tab i).pin = none ∨ l ∈ (s.tab i).unlocked) (hopen : (s.tab i).state = .opened)
  (hgroups : ∀ gs, f.groups = some gs → gs.length ≤ 8 ∧ ∀ g ∈ gs, g ≤ 7)
include hready hi hpin hopen hgroups

/-- What a FIRE past its checks of tab and groups answers. -/
theorem fire_answers {t : State} {status : Status} {body : List Field} {r : Raised}
    (hb : fireAsked i ((s.tab i).asked f.groups) (s.naming l i) = answer (t.raised r) status body)
    (hp : t.ports = (huntAgain (.lane l) s).ports) (ho : t.officeReceiver = (huntAgain (.lane l) s).officeReceiver) :
    exec (.fire (.lane l) tag (.fields f)) s = .next (t.answered (.lane l) tag 0x10 status body r) := by
  refine serve_concluded (taken_of_till hready) (mayRequest_of_till hready rfl) (Eq.trans (fire_eq l f _) ?_) hp ho
  have hunlocked := (naming_unlocked hready i).mpr hpin
  rw [withTab_eq, huntAgain_findTab, hi]
  dsimp only
  rw [huntAgain_tab, setTab_huntAgain, ← State.naming]
  simp only [naming_tab, hunlocked, Tab.named_state, hopen, groupsOk_iff.mpr hgroups, asked_named, Bool.not_true,
    Bool.false_eq_true, if_false, ne_eq, not_true_eq_false, hb]

/-- A FIRE that makes no change answers on the tab with its claim restarted (R161). -/
theorem fire_unchanged {status : Status} {body : List Field}
    (hb : fireAsked i ((s.tab i).asked f.groups) (s.naming l i) = answer (s.naming l i) status body) :
    exec (.fire (.lane l) tag (.fields f)) s
      = .next ((s.setTab i ((s.tab i).named (.lane l))).answered (.lane l) tag 0x10 status body nobody) := by
  rw [← answered_huntAgain]
  exact fire_answers hready hi hpin hopen hgroups (by rw [hb, ← State.naming, raised_nobody]) rfl rfl

end

end Sys2Proof.Machine
end

section
/-! SUPPORT. FIRE whole or not at all (R68 to R77): its refusals, and what the state after a whole fire has of the lines asked for. -/

namespace Sys2Proof.Machine

/-! ### Room in the queues (R73) -/

/-- The tickets of a request that a station would receive. -/
def State.neededAt (s : State) (asked : List (Line × Nat)) (b : StationNo) : Nat :=
  overall fun h g => if (s.target h).map Prod.fst = some b then cutsOf asked h g else 0

/-- Whether a request would take a target station's queue past 64. -/
def State.tooLong (s : State) (asked : List (Line × Nat)) (b : StationNo) : Bool :=
  0 < s.neededAt asked b && 64 < (s.station b).queue.length + s.neededAt asked b

theorem overfull_naming {asked : List (Line × Nat)} {s : State} (l : Lane) (i : Slot)
    (hall : ∀ q ∈ asked, s.target q.1.station ≠ none) :
    overfull (s.naming l i) (s.drafts asked) = (List.finRange 8).find? (s.tooLong asked) := by
  simp only [overfull, drafts_length_at hall, naming_station]
  rfl

/-! ### What the created tickets have of the lines asked for (R66, R70 to R72) -/

section
variable {i : Slot} {asked : List (Line × Nat)} {s : State}

/-- A created ticket stands at the target of its home station, with the fields of R75. -/
theorem ticketsMade_placed (hseq : s.fireSeq < 4294967296) {q : (StationNo × Ticket) × Nat}
    (hq : q ∈ (ticketsMade i (s.drafts asked) s).zipIdx) :
    (s.target q.1.2.home).map Prod.fst = some q.1.1
      ∧ q.1.2 =
        { number := q.1.2.number, tab := (s.tab i).number, home := q.1.2.home
          rerouted := decide (q.1.1 ≠ q.1.2.home), group := q.1.2.group
          seq := (s.fireSeq + q.2) % 4294967296, firedAt := s.clock
          late := if (s.station q.1.1).threshold = 0 then none else some (s.station q.1.1).threshold
          lateFlag := false, lines := q.1.2.lines } := by
  have hd := List.mem_map_of_mem (f := draftOf) (List.fst_mem_of_mem_zipIdx hq)
  rw [ticketsMade_drafts] at hd
  have ht : s.target q.1.2.home = some (q.1.1, q.1.2.rerouted) := drafts_target hd
  refine ⟨by rw [ht]; rfl, ?_⟩
  rw [← target_rerouted ht]
  exact ticketsMade_ticket i _ hseq (List.mem_zipIdx_iff_getElem?.mp hq)

/-- The created tickets of a home station and group hold its lines, cut into eights. -/
theorem ticketsMade_cuts (hall : ∀ q ∈ asked, s.target q.1.station ≠ none) (h : StationNo) (g : GroupNo) :
    ((ticketsMade i (s.drafts asked) s).filter fun q => q.2.home = h && q.2.group = g).map (fun q => q.2.lines)
      = cutEights (partOf asked h g).length (partOf asked h g) :=
  (ticketsMade_filter_map i _ s (fun d => d.home = h && d.group = g) Draft.lines).trans (filter_drafts hall h g)

theorem ticketsMade_ordered (h : asked.Pairwise fun q r => q.2 < r.2) :
    (ticketsMade i (s.drafts asked) s).Pairwise fun q r =>
      (partOf asked q.2.home q.2.group).headD 0 ≤ (partOf asked r.2.home r.2.group).headD 0 := by
  have hds := drafts_ordered s h
  rw [← ticketsMade_drafts i (s.drafts asked) s, List.pairwise_map] at hds
  exact hds

end

/-! ### The state after a fire (R74 to R77) -/

/-- The state after a fire of the lines asked for, before its reply: tickets created, rails brought up to date. -/
def State.firing (i : Slot) (asked : List (Line × Nat)) (s : State) : State :=
  (createTickets i (s.drafts asked) s).1.withRails (receivers (s.drafts asked))

theorem firing_station (i : Slot) (asked : List (Line × Nat)) (s : State) (b : StationNo) :
    (s.firing i asked).station b =
      { s.station b with
        queue := (s.station b).queue ++ ((ticketsMade i (s.drafts asked) s).filter fun q => q.1 = b).map Prod.snd
        rail := if (ticketsMade i (s.drafts asked) s).any (fun q => q.1 = b) then (s.firing i asked).railOf b
          else (s.station b).rail } := by
  let v := (createTickets i (s.drafts asked) s).1
  have hany : (ticketsMade i (s.drafts asked) s).any (fun q => q.1 = b) = true ↔ b ∈ receivers (s.drafts asked) := by
    rw [mem_receivers]
    conv_rhs => rw [← ticketsMade_drafts i (s.drafts asked) s]
    simp [draftOf]
  have hrail : (s.firing i asked).railOf b = v.railOf b := by
    refine railOf_congr rfl ?_
    rw [State.firing, withRails_station]
    split <;> exact ⟨rfl, rfl, rfl⟩
  rw [if_congr hany rfl rfl, hrail, State.firing, withRails_station, createTickets_station]
  split <;> rfl

/-- The quantities of the lines asked for are consumed (R14). -/
theorem firing_item {i : Slot} {groups : Option (List Nat)} {s : State}
    (hall : ∀ q ∈ (s.tab i).asked groups, s.target q.1.station ≠ none) (m : ItemNo) :
    (s.firing i ((s.tab i).asked groups)).item m
      = (s.item m).consume ((((s.tab i).asked groups).filter fun q => q.1.item = m).map fun q => q.1.quantity).sum := by
  obtain ⟨q, hq, hentered⟩ := (createTickets_part i (s.drafts ((s.tab i).asked groups)) s).items m
  have hsum := entered_of_fired (groups := groups) (createTickets_lines_length i (s.drafts ((s.tab i).asked groups)) s)
    (fun k x hx => by
      obtain ⟨y, hy, hcase⟩ := fired_line hall hx
      refine ⟨y, hy, ?_⟩
      split at hcase
      · obtain ⟨r, -, -, rfl⟩ := hcase
        rw [if_pos ‹_›]
        nofun
      · rwa [if_neg ‹_›]) m
  have hquantity : q = ((((s.tab i).asked groups).filter fun q => q.1.item = m).map fun q => q.1.quantity).sum := by omega
  rw [← hquantity, ← hq]
  rfl

theorem reply_mem_answered (l : Lane) (tag code : Nat) (status : Status) (body : List Field) (r : Raised) (s : State) :
    Frame.reply tag (code + 0x80) status body ∈ ((s.answered (.lane l) tag code status body r).port l).transmit := by
  have hport : (s.answered (.lane l) tag code status body r).port l = _ := tableOf_get _ l
  rw [hport, if_pos rfl]
  simp [PortEntry.gains]

/-! ### What a fire leaves alone -/

/-- Two states that differ in nothing but what a FIRE changes. -/
def SameButFired (s t : State) : Prop :=
  t = { s with
    items := t.items, tabs := t.tabs, stations := t.stations, ports := t.ports, ticketCounter := t.ticketCounter
    fireSeq := t.fireSeq }

theorem SameButFired.trans {s t u : State} (h : SameButFired s t) (h' : SameButFired t u) : SameButFired s u := by
  unfold SameButFired at *
  rw [h] at h'
  exact h'

theorem FirePart.sameButFired {i : Slot} {live : Nat} {s t : State} (h : FirePart i live s t) : SameButFired s t := by
  have hports : t.ports = s.ports := (congrArg State.ports h.part :)
  unfold SameButFired
  rw [hports]
  exact h.part

theorem sameButFired_answered {l : Lane} {tag code : Nat} {status : Status} {body : List Field} {r : Raised} {s : State}
    (hr : r .office = 0) : SameButFired s (s.answered (.lane l) tag code status body r) := by
  simp [SameButFired, State.answered, hr]

/-- What a fire of the lines asked for raises (R46, R91). -/
def fireRaises (i : Slot) (asked : List (Line × Nat)) (s : State) : Raised :=
  both (toLanes .tabChanged (s.tab i).followers)
    (toLanes .railChanged (railPorts (receivers (s.drafts asked)) (createTickets i (s.drafts asked) s).1))

/-- The tickets that a fire of the lines asked for creates. -/
def State.made (l : Lane) (i : Slot) (asked : List (Line × Nat)) (s : State) : List (StationNo × Ticket) :=
  ticketsMade i ((s.naming l i).drafts asked) (s.naming l i)

/-- The body of the reply to a fire of the lines asked for (R77). -/
def State.fireBody (l : Lane) (i : Slot) (asked : List (Line × Nat)) (s : State) : List Field :=
  [Field.number (overall (cutsOf asked)), Field.listCount (overall (cutsOf asked))]
    ++ (s.made l i asked).flatMap fun q => [Field.ident q.2.number, Field.small q.1.val]

/-- The state after a FIRE that fires the lines asked for. -/
def State.fired (l : Lane) (tag : Nat) (i : Slot) (asked : List (Line × Nat)) (s : State) : State :=
  ((s.naming l i).firing i asked).answered (.lane l) tag 0x10 .ok (s.fireBody l i asked) (fireRaises i asked (s.naming l i))

theorem naming_numberOnTicket (l : Lane) (i : Slot) (s : State) (n : Nat) :
    (s.naming l i).numberOnTicket n ↔ s.numberOnTicket n := by
  simp [State.numberOnTicket]

section
variable {l : Lane} {tag : Nat} {i : Slot} {asked : List (Line × Nat)} {s : State}

theorem fired_rest : SameButFired s (s.fired l tag i asked) := by
  have hnaming : SameButFired s (s.naming l i) := rfl
  have hcreated := (createTickets_part i ((s.naming l i).drafts asked) (s.naming l i)).sameButFired
  have hrails : SameButFired (createTickets i ((s.naming l i).drafts asked) (s.naming l i)).1 ((s.naming l i).firing i asked) := rfl
  exact ((hnaming.trans hcreated).trans hrails).trans (sameButFired_answered (by simp [fireRaises, both, toLanes]))

theorem fired_tab :
    (s.fired l tag i asked).tab i = (createTickets i ((s.naming l i).drafts asked) (s.naming l i)).1.tab i := rfl

theorem fired_followers {m : Lane} (hm : m ∈ (s.tab i).followers) :
    ((s.fired l tag i asked).port m).events &&& eventBit .tabChanged ≠ 0 := by
  rw [State.fired, answered_events]
  exact and_raised_ne_zero (by simp [toLanes, hm])

theorem fired_fireSeq (hall : ∀ q ∈ asked, s.target q.1.station ≠ none) (hseq : s.fireSeq < 4294967296) :
    (s.fired l tag i asked).fireSeq = (s.fireSeq + overall (cutsOf asked)) % 4294967296 := by
  rw [← drafts_length hall, ← naming_drafts l i]
  exact createTickets_fireSeq i _ (s := s.naming l i) hseq

theorem fired_tabs (hall : ∀ q ∈ asked, s.target q.1.station ≠ none) :
    (s.fired l tag i asked).tabs = s.tabs.set i
      { (s.tab i).named (.lane l) with
        lines := ((s.fired l tag i asked).tab i).lines, live := (s.tab i).live + overall (cutsOf asked) } := by
  have htabs := (createTickets_part i ((s.naming l i).drafts asked) (s.naming l i)).tabs
  rw [naming_tab, Tab.named_live, naming_drafts, drafts_length hall, ← naming_drafts l i] at htabs
  exact htabs.trans (congrArg State.tabs (s.setTab_setTab i _ _))

theorem fired_station (b : StationNo) :
    (s.fired l tag i asked).station b =
      { s.station b with
        queue := (s.station b).queue ++ ((s.made l i asked).filter fun q => q.1 = b).map Prod.snd
        rail := if (s.made l i asked).any (fun q => q.1 = b) then (s.fired l tag i asked).railOf b else (s.station b).rail } := by
  have h := firing_station i asked (s.naming l i) b
  rw [naming_station] at h
  exact h

theorem fired_reply :
    Frame.reply tag 0x90 .ok (s.fireBody l i asked) ∈ ((s.fired l tag i asked).port l).transmit :=
  reply_mem_answered l tag 0x10 .ok _ _ _

theorem made_length (hall : ∀ q ∈ asked, s.target q.1.station ≠ none) : (s.made l i asked).length = overall (cutsOf asked) := by
  rw [State.made, ticketsMade_length, naming_drafts, drafts_length hall]

theorem made_placed (hseq : s.fireSeq < 4294967296) {q : (StationNo × Ticket) × Nat} (hq : q ∈ (s.made l i asked).zipIdx) :
    (s.target q.1.2.home).map Prod.fst = some q.1.1
      ∧ q.1.2 =
        { number := q.1.2.number, tab := (s.tab i).number, home := q.1.2.home
          rerouted := decide (q.1.1 ≠ q.1.2.home), group := q.1.2.group
          seq := (s.fireSeq + q.2) % 4294967296, firedAt := s.clock
          late := if (s.station q.1.1).threshold = 0 then none else some (s.station q.1.1).threshold
          lateFlag := false, lines := q.1.2.lines } := by
  have h := ticketsMade_placed (s := s.naming l i) hseq hq
  rw [naming_target, naming_tab, Tab.named_number, naming_station] at h
  exact h

theorem made_cuts (hall : ∀ q ∈ asked, s.target q.1.station ≠ none) (h : StationNo) (g : GroupNo) :
    (let cut := ((s.made l i asked).filter fun q => q.2.home = h && q.2.group = g).map fun q => q.2.lines
     cut.flatten = partOf asked h g ∧ (∀ ns ∈ cut, 1 ≤ ns.length ∧ ns.length ≤ 8) ∧ ∀ ns ∈ cut.dropLast, ns.length = 8) := by
  intro cut
  have hcut : cut = cutEights (partOf asked h g).length (partOf asked h g) :=
    ticketsMade_cuts (s := s.naming l i) (by simpa only [naming_target] using hall) h g
  rw [hcut]
  exact ⟨cutEights_flatten (Nat.le_refl _), fun _ => cutEights_sizes, fun _ => cutEights_full⟩

theorem made_ordered {groups : Option (List Nat)} :
    (s.made l i ((s.tab i).asked groups)).Pairwise fun q r =>
      (partOf ((s.tab i).asked groups) q.2.home q.2.group).headD 0 ≤ (partOf ((s.tab i).asked groups) r.2.home r.2.group).headD 0 :=
  ticketsMade_ordered (asked_ascending (s.tab i) groups)

theorem made_number (hall : ∀ q ∈ asked, s.target q.1.station ≠ none) (hroom : overall (cutsOf asked) ≤ s.poolFree)
    (hfree : ∀ k, k < overall (cutsOf asked) → ¬s.numberOnTicket ((s.ticketCounter - 1 + k) % 65535 + 1))
    (h1 : 1 ≤ s.ticketCounter) (h2 : s.ticketCounter ≤ 65535) {q : (StationNo × Ticket) × Nat}
    (hq : q ∈ (s.made l i asked).zipIdx) : q.1.2.number = (s.ticketCounter - 1 + q.2) % 65535 + 1 := by
  have hlen : ((s.naming l i).drafts asked).length = overall (cutsOf asked) := by rw [naming_drafts, drafts_length hall]
  have hpool : s.poolFree ≤ 256 := Nat.sub_le _ _
  refine ticketsMade_number i _ (s := s.naming l i) h1 h2 (by omega) (fun k hk => ?_) (List.mem_zipIdx_iff_getElem?.mp hq)
  rw [naming_numberOnTicket]
  exact hfree k (hlen ▸ hk)

end

section
variable {l : Lane} {tag : Nat} {i : Slot} {groups : Option (List Nat)} {s : State}
  (hall : ∀ q ∈ (s.tab i).asked groups, s.target q.1.station ≠ none)
include hall

theorem fired_item (m : ItemNo) :
    (s.fired l tag i ((s.tab i).asked groups)).item m
      = (s.item m).consume ((((s.tab i).asked groups).filter fun q => q.1.item = m).map fun q => q.1.quantity).sum := by
  have hitem (asked : List (Line × Nat)) : (s.fired l tag i asked).item m = ((s.naming l i).firing i asked).item m := rfl
  have h := firing_item (i := i) (groups := groups) (s := s.naming l i) (by
    rw [naming_tab, asked_named]
    simpa only [naming_target] using hall) m
  rw [naming_tab, asked_named, naming_item, ← hitem] at h
  exact h

theorem fired_lines {q : Line × Nat} (hq : q ∈ (s.tab i).lines.zipIdx) :
    ∃ y, ((s.fired l tag i ((s.tab i).asked groups)).tab i).lines[q.2]? = some y
      ∧ if q ∈ (s.tab i).asked groups then
          ∃ r ∈ s.made l i ((s.tab i).asked groups), q.2 + 1 ∈ r.2.lines
            ∧ y = { q.1 with state := .fired, ticket := some r.2.number }
        else y = q.1 := by
  have h := fired_line (i := i) (groups := groups) (s := s.naming l i) (k := q.2) (x := q.1) (by
    rw [naming_tab, asked_named]
    simpa only [naming_target] using hall) (by
    rw [naming_tab, Tab.named_lines]
    exact List.mem_zipIdx_iff_getElem?.mp hq)
  rw [naming_tab, asked_named] at h
  rw [fired_tab]
  exact h

end

/-! ### The refusals (R72, R73) -/

section
variable {l : Lane} {tag : Nat} {f : FireFields} {i : Slot} {s : State} (hready : tillReady l tag s = true)
  (hi : s.findTab f.tab = some i) (hpin : (s.tab i).pin = none ∨ l ∈ (s.tab i).unlocked) (hopen : (s.tab i).state = .opened)
  (hgroups : ∀ gs, f.groups = some gs → gs.length ≤ 8 ∧ ∀ g ∈ gs, g ≤ 7)
include hready hi hpin hopen hgroups

theorem fire_noStation {q : Line × Nat}
    (hq : ((s.tab i).asked f.groups).find? (fun q => (s.target q.1.station).isNone) = some q) :
    exec (.fire (.lane l) tag (.fields f)) s = .next
      ((s.setTab i ((s.tab i).named (.lane l))).answered (.lane l) tag 0x10 .noStation [Field.small q.1.station.val] nobody) :=
  fire_unchanged hready hi hpin hopen hgroups (fireAsked_noStation (by simpa only [naming_target] using hq))

variable (hne : (s.tab i).asked f.groups ≠ []) (hall : ∀ q ∈ (s.tab i).asked f.groups, s.target q.1.station ≠ none)
include hne hall

theorem fire_ticketsFull (hfull : s.poolFree < overall (cutsOf ((s.tab i).asked f.groups))) :
    exec (.fire (.lane l) tag (.fields f)) s = .next
      ((s.setTab i ((s.tab i).named (.lane l))).answered (.lane l) tag 0x10 .ticketsFull
        [Field.number (overall (cutsOf ((s.tab i).asked f.groups))), Field.number s.poolFree] nobody) := by
  refine fire_unchanged hready hi hpin hopen hgroups ?_
  rw [← naming_poolFree l i s] at hfull ⊢
  exact fireAsked_ticketsFull hne (by simpa only [naming_target] using hall) hfull

variable (hroom : overall (cutsOf ((s.tab i).asked f.groups)) ≤ s.poolFree)
include hroom

theorem fire_queueFull {b : StationNo} (hb : (List.finRange 8).find? (s.tooLong ((s.tab i).asked f.groups)) = some b) :
    exec (.fire (.lane l) tag (.fields f)) s = .next
      ((s.setTab i ((s.tab i).named (.lane l))).answered (.lane l) tag 0x10 .queueFull
        [Field.small b.val, Field.number (s.station b).queue.length] nobody) := by
  refine fire_unchanged hready hi hpin hopen hgroups ?_
  rw [← naming_poolFree l i s] at hroom
  rw [← overfull_naming l i hall, ← naming_drafts l i] at hb
  rw [← naming_station l i]
  exact fireAsked_queueFull hne (by simpa only [naming_target] using hall) hroom hb

/-! ### The answer of a whole fire (R74 to R77) -/

/-- A FIRE that can be placed and has room fires the lines asked for. -/
theorem fire_succeeds (hlong : ∀ b, s.tooLong ((s.tab i).asked f.groups) b = false) :
    exec (.fire (.lane l) tag (.fields f)) s = .next (s.fired l tag i ((s.tab i).asked f.groups)) := by
  have hall' : ∀ q ∈ (s.tab i).asked f.groups, (s.naming l i).target q.1.station ≠ none := by
    simpa only [naming_target] using hall
  have hover : overfull (s.naming l i) ((s.naming l i).drafts ((s.tab i).asked f.groups)) = none := by
    rw [naming_drafts, overfull_naming l i hall]
    simpa using hlong
  have hpart := createTickets_part i ((s.naming l i).drafts ((s.tab i).asked f.groups)) (s.naming l i)
  refine fire_answers hready hi hpin hopen hgroups ?_ (congrArg State.ports hpart.part :)
    (congrArg State.officeReceiver hpart.part :)
  rw [fireAsked_fires hne hall' (by rwa [naming_poolFree]) hover, fireDrafts_eq, drafts_length hall']
  rfl

end

/-- Settles O34: a FIRE is refused in one of its cases, which changes no line, or is whole, and then its tickets, queues, lines, items
and reply are those of the lines asked for. -/
theorem fireIsWholeOrNothing : Obligations.FireIsWholeOrNothing := by
  refine ⟨fun l tag f i s t hi ht => execFire_whole hi ht, fun l tag f i s hready hi hpin hopen hgroups => ?_⟩
  intro c lines asked part cuts takes target sumAll need needAt free tooLong s'
  have htarget (h : StationNo) : target h = (s.target h).map Prod.fst := (target_fst s h).symm
  have hplace (q : Line × Nat) : target q.1.station = none ↔ s.target q.1.station = none := by
    rw [htarget, Option.map_eq_none_iff]
  have htooLong : tooLong = s.tooLong asked := by
    have hneedAt : needAt = s.neededAt asked := funext fun b => by
      simp only [State.neededAt, target_fst]
      rfl
    funext b
    rw [State.tooLong, ← hneedAt]
  refine ⟨fun hnil => fire_unchanged hready hi hpin hopen hgroups (if_pos hnil), fun q hq => ?_, fun hne hplaced => ?_⟩
  · refine fire_noStation hready hi hpin hopen hgroups ((congrArg (List.find? · asked) (funext fun q => ?_)).trans hq)
    rw [Bool.eq_iff_iff, Option.isNone_iff_eq_none, decide_eq_true_iff, hplace]
  have hall : ∀ q ∈ asked, s.target q.1.station ≠ none := fun q hq e => hplaced q hq ((hplace q).mpr e)
  refine ⟨fun hfull => fire_ticketsFull hready hi hpin hopen hgroups hne hall hfull,
    fun b hroom hb => fire_queueFull hready hi hpin hopen hgroups hne hall hroom (htooLong ▸ hb), fun hroom hlong hseq => ?_⟩
  refine ⟨s.fired l tag i asked,
    fire_succeeds hready hi hpin hopen hgroups hne hall hroom (htooLong ▸ hlong),
    ⟨s.made l i asked, made_length hall, fun q hq => ?_, made_cuts hall, made_ordered, fun hfree h1 h2 q hq => ?_,
      fired_station, fired_reply, fun q hq => fired_lines hall hq⟩,
    fired_tabs hall, fun m => ?_, fired_fireSeq hall hseq, fun m hm => fired_followers hm, fired_rest⟩
  · rw [htarget]
    exact made_placed hseq hq
  · exact made_number hall hroom hfree h1 h2 hq
  · exact (fired_item hall m).trans (Item.consume_eq _ _)

end Sys2Proof.Machine
end

section
/-! SUPPORT. FIRE of one line (R66, R67, R69 to R77): its one ticket, and the state after it. -/

namespace Sys2Proof.Machine

/-! ### One line asked for (R69 to R72) -/

theorem asked_one {t : Tab} {k : Nat} {x : Line} (hx : t.lines[k]? = some x) (he : x.state = .entered)
    (honly : ∀ j y, t.lines[j]? = some y → y.state = .entered → j = k) : t.asked none = [(x, k)] := by
  have hmem {q : Line × Nat} : q ∈ t.asked none ↔ q = (x, k) := by
    rw [mem_asked]
    constructor
    · rintro ⟨hq, hqe, -⟩
      have hk := honly _ _ hq hqe
      rw [hk, hx] at hq
      exact Prod.ext (Option.some.inj hq).symm hk
    · rintro rfl
      exact ⟨hx, he, nofun⟩
  have hasc := asked_ascending t none
  cases ha : t.asked none with
  | nil => exact absurd (hmem.mpr rfl) (ha ▸ List.not_mem_nil)
  | cons q qs =>
    rw [ha] at hmem hasc
    obtain rfl := hmem.mp List.mem_cons_self
    cases qs with
    | nil => rfl
    | cons r rs =>
      obtain rfl := hmem.mp (List.mem_cons_of_mem _ List.mem_cons_self)
      exact absurd ((List.pairwise_cons.mp hasc).1 _ List.mem_cons_self) (Nat.lt_irrefl k)

theorem target_home {s : State} {h : StationNo} (ho : (s.station h).state ≠ .closed) : s.target h = some (h, false) := by
  simp [State.target, takesTickets, ho]

theorem target_alternate {s : State} {h st : StationNo} (hc : (s.station h).state = .closed)
    (ha : (s.station h).alternate = some st) (ho : (s.station st).state ≠ .closed) : s.target h = some (st, true) := by
  simp [State.target, takesTickets, hc, ha, ho]

theorem drafts_one {s : State} {x : Line} {k : Nat} {st : StationNo} {r : Bool} (ht : s.target x.station = some (st, r)) :
    s.drafts [(x, k)] = [⟨x.station, x.group, st, r, [k + 1]⟩] := by
  have hparts : partitionsOf [(x, k)] = [⟨x.station, x.group, [k + 1]⟩] := rfl
  simp [State.drafts, hparts, State.draftsAt, ht, draftsOf, cutEights, Config.ticketLines]

/-! ### Its ticket created (R74 to R76) -/

theorem createTicket_one {i : Slot} {s : State} {d : Draft} {k : Nat} {x : Line} (hd : d.lines = [k + 1])
    (hx : (s.tab i).lines[k]? = some x) (he : x.state = .entered) :
    createTicket i s d =
      { s with
        ticketCounter := nextNumber Config.maxTicketNumber s.nextTicket
        fireSeq := (s.fireSeq + 1) % Config.wrap32
        items := s.items.set x.item ((s.item x.item).consume x.quantity)
        stations := s.stations.set d.station { s.station d.station with queue := (s.station d.station).queue ++ [s.laid i d] }
        tabs := s.tabs.set i
          { s.tab i with
            live := (s.tab i).live + 1
            lines := (s.tab i).lines.set k { x with state := .fired, ticket := some s.nextTicket } } } := by
  have hline : ((s.joinedBy i d).tab i).line? (k + 1) = some x := by
    rw [joinedBy_tab]
    exact line?_eq.mpr ⟨Nat.succ_pos k, hx⟩
  rw [createTicket_eq, hd, List.foldl_cons, List.foldl_nil]
  rcases fireLine_cases i s.nextTicket (s.joinedBy i d) (k + 1) with ⟨-, hne⟩ | ⟨y, hy, -, e⟩
  · exact absurd he (hne x hline)
  obtain rfl : x = y := Option.some.inj (hline.symm.trans hy)
  rw [e, joinedBy_tab, Line.firedOn_entered he]
  exact congrArg (fun ts => { ((s.joinedBy i d).setItem x.item ((s.item x.item).consume x.quantity)) with tabs := ts })
    (congrArg State.tabs (s.setTab_setTab i _ _))

theorem nextTicket_naming {l : Lane} {i : Slot} {s : State} {number : Nat} (h1 : 1 ≤ s.ticketCounter) (h2 : s.ticketCounter ≤ 65535)
    (h : FirstFrom 65535 s.numberOnTicket s.ticketCounter number) : (s.naming l i).nextTicket = number := by
  have hused : (fun m => (s.naming l i).ticketInUse m = true) = s.numberOnTicket :=
    funext fun m => propext (ticketInUse_iff.trans (naming_numberOnTicket l i s m))
  exact firstUnused_first h1 h2 (hused ▸ h)

theorem withRails_one (st : StationNo) (s : State) : s.withRails [st] = s.withRail st := by
  refine congrArg (fun x => { s with stations := x }) (table_ext fun b => ?_)
  refine Eq.trans ?_ (withRail_station st s b).symm
  rw [tableOf_get]
  by_cases h : b = st
  · subst h; simp
  · simp [h]

theorem receivers_one (d : Draft) : receivers [d] = [d.station] := by
  have hone : ∀ b : StationNo, (allStations.filter fun st => b = st) = [b] := by decide
  simpa only [receivers, List.any_cons, List.any_nil, Bool.or_false] using hone d.station

/-- The state after FIRE of one line, before its rail and its reply. -/
def State.oneFired (l : Lane) (i : Slot) (k number : Nat) (x : Line) (d : Draft) (s : State) : State :=
  { s with
    ticketCounter := if number < 65535 then number + 1 else 1
    fireSeq := (s.fireSeq + 1) % 4294967296
    items := s.items.set x.item
      { s.item x.item with
        reserved := (s.item x.item).reserved - x.quantity
        count := if (s.item x.item).mode = .limited then (s.item x.item).count - x.quantity else (s.item x.item).count }
    stations := s.stations.set d.station
      { s.station d.station with
        queue := (s.station d.station).queue ++
          [{ number := number, tab := (s.tab i).number, home := d.home, rerouted := d.rerouted, group := d.group
             seq := s.fireSeq, firedAt := s.clock
             late := if (s.station d.station).threshold = 0 then none else some (s.station d.station).threshold
             lateFlag := false, lines := d.lines }] }
    tabs := s.tabs.set i
      { (s.tab i).named (.lane l) with
        live := (s.tab i).live + 1
        lines := (s.tab i).lines.set k { x with state := .fired, ticket := some number } } }

theorem createTicket_oneFired {l : Lane} {i : Slot} {s : State} {d : Draft} {k number : Nat} {x : Line} (hd : d.lines = [k + 1])
    (hx : (s.tab i).lines[k]? = some x) (he : x.state = .entered) (hn : (s.naming l i).nextTicket = number) :
    createTicket i (s.naming l i) d = huntAgain (.lane l) (s.oneFired l i k number x d) := by
  have hx' : ((s.naming l i).tab i).lines[k]? = some x := by rwa [naming_tab, Tab.named_lines]
  have htabs (u : Tab) : (s.naming l i).tabs.set i u = s.tabs.set i u := congrArg State.tabs (s.setTab_setTab i _ u)
  rw [createTicket_one hd hx' he, State.laid, hn, htabs, naming_tab, naming_item, naming_station, Item.consume_eq, Tab.named_live,
    Tab.named_lines, Tab.named_number]
  rfl

/-- A FIRE of one line that has a target and room at it. -/
theorem fire_one {l : Lane} {tag n : Nat} {i : Slot} {k number : Nat} {x : Line} {st : StationNo} {r : Bool} {s : State}
    (hready : tillReady l tag s = true) (hi : s.findTab n = some i) (hpin : (s.tab i).pin = none ∨ l ∈ (s.tab i).unlocked)
    (hopen : (s.tab i).state = .opened) (hx : (s.tab i).lines[k]? = some x) (he : x.state = .entered)
    (honly : ∀ j y, (s.tab i).lines[j]? = some y → y.state = .entered → j = k) (ht : s.target x.station = some (st, r))
    (hocc : s.occupancy < 256) (hlen : (s.station st).queue.length < 64) (hn : (s.naming l i).nextTicket = number) :
    (let s' := s.oneFired l i k number x ⟨x.station, x.group, st, r, [k + 1]⟩
     exec (.fire (.lane l) tag (.fields ⟨n, none⟩)) s = .next
      ((s'.withRail st).answered (.lane l) tag 0x10 .ok
        [Field.number 1, Field.listCount 1, Field.ident number, Field.small st.val]
        (both (toLanes .tabChanged (s.tab i).followers) (railRaised st s')))) := by
  intro s'
  have hasked := asked_one hx he honly
  have hall : ∀ q ∈ [(x, k)], s.target q.1.station ≠ none := by simp [ht]
  have hone : overall (cutsOf [(x, k)]) = 1 := by rw [← drafts_length hall, drafts_one ht]; rfl
  have hroom : 1 ≤ s.poolFree := Nat.sub_pos_of_lt hocc
  have hlong (b : StationNo) : s.tooLong [(x, k)] b = false := by
    rw [State.tooLong, State.neededAt, ← drafts_length_at hall, drafts_one ht]
    by_cases hb : st = b
    · subst hb
      simp
      omega
    · simp [hb]
  have hds : (s.naming l i).drafts [(x, k)] = [⟨x.station, x.group, st, r, [k + 1]⟩] := (naming_drafts l i s _).trans (drafts_one ht)
  have hcreated : (createTickets i ((s.naming l i).drafts [(x, k)]) (s.naming l i)).1 = huntAgain (.lane l) s' := by
    rw [hds]
    exact createTicket_oneFired rfl hx he hn
  have hfiring : (s.naming l i).firing i [(x, k)] = huntAgain (.lane l) (s'.withRail st) := by
    rw [State.firing, hcreated, hds, receivers_one, withRails_one]
    rfl
  have hraises : fireRaises i [(x, k)] (s.naming l i) = both (toLanes .tabChanged (s.tab i).followers) (railRaised st s') := by
    rw [fireRaises, hcreated, hds, receivers_one, naming_tab, Tab.named_followers, ← railRaised_eq]
    rfl
  have hbody : s.fireBody l i [(x, k)] = [Field.number 1, Field.listCount 1, Field.ident number, Field.small st.val] := by
    rw [State.fireBody, State.made, hds, hone, ← hn]
    rfl
  have hexec := fire_succeeds (f := ⟨n, none⟩) hready hi hpin hopen nofun (by rw [hasked]; exact List.cons_ne_nil _ _)
    (by rwa [hasked]) (by rwa [hasked, hone]) (by rwa [hasked])
  rw [hexec, hasked, State.fired, hfiring, hraises, hbody, answered_huntAgain]

/-- Settles O33: the line has a target, its home station or the alternate of a CLOSED one, and room at it. -/
theorem fireOneLine : Obligations.FireOneLine := by
  intro l tag n i k number x st s hready hi hpin hopen hx he honly hst hocc hlen h1 h2 hfirst
  have ht : s.target x.station = some (st, decide ((s.station x.station).state = .closed)) := by
    rcases hst with ⟨ho, rfl⟩ | ⟨hc, ha, ho⟩
    · rw [target_home ho, decide_eq_false ho]
    · rw [target_alternate hc ha ho, decide_eq_true hc]
  exact fire_one hready hi hpin hopen hx he honly ht hocc hlen (nextTicket_naming h1 h2 hfirst)

end Sys2Proof.Machine
end

section
/-! SUPPORT. The clock and the kitchen stations: the tick (R106, R161, R173, R184), the late expiry (R107), and the requests of a
station's bound port (R93 to R103). -/

namespace Sys2Proof.Machine

/-! ### The tick and the late expiry (R106, R107, R184) -/

theorem clock_tick (n : Nat) : (n + 1) % Config.wrap32 = if n = 4294967295 then 0 else (n + 1) % 4294967296 := by
  split
  · subst_vars; rfl
  · rfl

theorem tick_station (s : State) (i : StationNo) :
    (tick s).station i = (s.station i).mapLive fun t => { t with late := countDown t.late } := tableOf_get _ i

/-- Settles O5: each table of the tick, entry by entry. -/
theorem secondTickCounts : Obligations.SecondTickCounts := by
  intro s hr
  have htick : exec .secondTick s = .next (tick s) := by
    show Host.Outcome.next (if s.resetPin then s else tick s) = _
    rw [hr]
    rfl
  refine ⟨tick s, htick, clock_tick s.clock, fun i => tableOf_get _ i, tick_station s, fun l => ?_, rfl⟩
  refine (tableOf_get _ l).trans ?_
  cases (s.port l).receiver <;> rfl

theorem expireLate_raised {n : Nat} {st : StationNo} {place : TicketState} {t : Ticket} {i : Slot} {s : State}
    (hl : s.findLive n = some (st, place, t)) (hd : t.late = some 0) (hi : s.findTab t.tab = some i) :
    expireLate n s = State.raised (both (toLanes .ticketLate (s.station st).port.toList) (toLanes .ticketLate (s.tab i).followers))
      (s.setStation st ((s.station st).mapLive (Ticket.expire n))) := by
  have htab : s.tabNumbered t.tab = s.tab i := by simp only [State.tabNumbered, hi]
  simp only [expireLate, hl, if_pos hd, htab, raiseOptional_eq, raiseLanes_eq, raised_raised]
  rfl

/-- Settles O6: the ticket found is live with its countdown at 0, and its tab is held. -/
theorem lateExpiryMarksTicket : Obligations.LateExpiryMarksTicket := fun _ _ _ _ _ s hr hl hd hi =>
  happen_raised _ _ s _ hr (expireLate_raised hl hd hi) rfl

/-! ### A request of a station's bound port -/

section
variable {α : Type} {k : Kind} {c : Codec α} {l : Lane} {st : StationNo} {tag : Nat} {fields : α}
  {block : StationNo → α → State → Answer} {s t : State} {status : Status} {body : List Field} {r : Raised}

/-- What a bound station port's request answers; `t` is the state its block leaves, but for the port's receiver. -/
theorem serveStation_answered (h : stationReady l st tag s = true) (hk : (senders k).boundStation = true)
    (hb : block st fields (huntAgain (.lane l) s) = answer ((huntAgain (.lane l) t).raised r) status body)
    (hp : t.ports = s.ports) (ho : t.officeReceiver = s.officeReceiver) :
    serveStation k c (.lane l) tag (.fields fields) block s = .next (t.answered (.lane l) tag (kindCode k) status body r) := by
  rw [serveStation_concluded h hk hb (huntAgain_ports_congr _ hp) (huntAgain_receiver_congr _ ho), answered_huntAgain]

/-- A bound station port's request that is refused or only reads. -/
theorem serveStation_unchanged (h : stationReady l st tag s = true) (hk : (senders k).boundStation = true)
    (hb : block st fields (huntAgain (.lane l) s) = answer (huntAgain (.lane l) s) status body) :
    serveStation k c (.lane l) tag (.fields fields) block s = .next (s.answered (.lane l) tag (kindCode k) status body nobody) :=
  serveStation_answered h hk (by rw [raised_nobody]; exact hb) rfl rfl

end

/-! ### What a station request reads does not depend on the port's receiver -/

@[simp] theorem huntAgain_dispatch (p : Port) (s : State) (st : StationNo) : (huntAgain p s).dispatch st = s.dispatch st := by
  cases p <;> rfl

@[simp] theorem huntAgain_ticketContent (p : Port) (s : State) (place : TicketState) (t : Ticket) :
    ticketContent (huntAgain p s) place t = ticketContent s place t := by
  cases p <;> rfl

@[simp] theorem huntAgain_stationPositions (p : Port) (s : State) (st : StationNo) :
    stationPositions (huntAgain p s) st = stationPositions s st := by
  cases p <;> rfl

@[simp] theorem huntAgain_stationHeader (p : Port) (s : State) (st : StationNo) :
    stationHeader (huntAgain p s) st = stationHeader s st := by
  cases p <;> rfl

@[simp] theorem huntAgain_poolFree (p : Port) (s : State) : (huntAgain p s).poolFree = s.poolFree := by
  cases p <;> rfl

@[simp] theorem modifyStation_huntAgain (p : Port) (s : State) (st : StationNo) (f : Station → Station) :
    (huntAgain p s).modifyStation st f = huntAgain p (s.setStation st (f (s.station st))) := by
  simp [State.modifyStation]

@[simp] theorem recomputeRail_huntAgain (p : Port) (st : StationNo) (s : State) :
    recomputeRail st (huntAgain p s) = (huntAgain p (s.withRail st)).raised (railRaised st s) := by
  rw [recomputeRail_eq]
  cases p <;> rfl

/-! ### RAIL and STATION_VIEW (R93, R103) -/

theorem optField_next {α : Type} (f : α → List Field) (xs : List α) (n : Nat) (next : List Field) (hf : ∀ x, f x = next) :
    optField f xs[n]? = if n < xs.length then Field.presence true :: next else [Field.presence false] := by
  split
  · rename_i h
    rw [List.getElem?_eq_getElem h]
    exact congrArg _ (hf _)
  · rename_i h
    rw [List.getElem?_eq_none (Nat.le_of_not_lt h)]
    rfl

/-- Settles O35: the two blocks answer the state they are given, and their bodies are those stated. -/
theorem stationReads : Obligations.StationReads := by
  intro l st tag s hready
  refine ⟨serveStation_unchanged hready rfl rfl, fun start hstart => serveStation_unchanged hready rfl ?_⟩
  simp only [stationView, if_neg (Nat.not_lt.mpr hstart : ¬Config.maxStationPosition < start), huntAgain_stationHeader,
    huntAgain_stationPositions, huntAgain_ticketContent, listField, List.length_take, List.append_assoc,
    List.cons_append, List.nil_append, optField_next (fun _ => [Field.small (start + Config.stationPage)]) _ _ _ fun _ => rfl]
  rfl

/-! ### TAKE and RESUME (R94, R95, R99) -/

theorem stackFull_iff {x : Station} : stackFull x = true ↔ x.inWork ≠ none ∧ 2 ≤ x.stack.length := by
  unfold stackFull
  rw [Bool.and_eq_true, decide_eq_true_iff, Option.isSome_iff_ne_none]
  rfl

theorem stackFull_eq_false {x : Station} (h : x.inWork = none ∨ x.stack.length < 2) : stackFull x = false := by
  rw [← Bool.not_eq_true, stackFull_iff]
  rcases h with h | h
  · exact fun hf => hf.1 h
  · exact fun hf => absurd hf.2 (Nat.not_le.mpr h)

theorem pushedField_eq (x : Station) :
    pushedField x = match x.inWork with
      | none => [Field.presence false]
      | some y => [Field.presence true, Field.ident y.number] := by
  unfold pushedField
  cases x.inWork <;> rfl

/-- The content of a ticket reads its tab and the group priorities alone (R92). -/
theorem ticketContent_congr {s u : State} {place : TicketState} {t : Ticket} (hp : u.priorities = s.priorities)
    (hl : ∀ n, lineContent (u.tabNumbered t.tab) n = lineContent (s.tabNumbered t.tab) n) :
    ticketContent u place t = ticketContent s place t := by
  have hline : lineContent (u.tabNumbered t.tab) = lineContent (s.tabNumbered t.tab) := funext hl
  simp only [ticketContent, State.priority, hp, hline]

/-- A request of a station's port that takes a ticket from the queue (R95). -/
theorem take_first {p : Port} {st : StationNo} {s : State} {t : Ticket} {rest : List Ticket} (hd : s.dispatch st = t :: rest)
    (hroom : (s.station st).inWork = none ∨ (s.station st).stack.length < 2) :
    (let s' := s.setStation st ((s.station st).takeTicket t)
     take st () (huntAgain p s) = answer ((huntAgain p (s'.withRail st)).raised (railRaised st s')) .ok
      (ticketContent s .inWork t ++ pushedField (s.station st))) := by
  simp only [take, huntAgain_dispatch, hd, huntAgain_station, stackFull_eq_false hroom, modifyStation_huntAgain,
    recomputeRail_huntAgain]
  refine answer_congr rfl rfl (congrArg (· ++ pushedField (s.station st)) ?_)
  exact (huntAgain_ticketContent p _ .inWork t)

/-- Settles O36, one clause after another. -/
theorem takeAndResume : Obligations.TakeAndResume := by
  intro l st tag s hready x
  refine ⟨fun hd => ?_, fun t rest hd hw hs => ?_, fun t rest hd hroom => ?_, fun t rest hw hs => ?_, fun h => ?_⟩
  · refine serveStation_unchanged hready rfl ?_
    simp only [take, huntAgain_dispatch, hd]
  · refine serveStation_unchanged hready rfl ?_
    simp only [take, huntAgain_dispatch, hd, huntAgain_station]
    exact if_pos (stackFull_iff.mpr ⟨hw, hs⟩)
  · have htake := take_first (p := .lane l) hd hroom
    dsimp only at htake ⊢
    rw [pushedField_eq] at htake
    exact serveStation_answered hready rfl htake rfl rfl
  · refine serveStation_answered hready rfl ?_ rfl rfl
    have hw' : (s.station st).inWork = none := hw
    have hs' : (s.station st).stack = t :: rest := hs
    simp only [resume, huntAgain_station, hw', hs', raised_nobody, modifyStation_huntAgain]
    exact answer_congr rfl rfl (huntAgain_ticketContent _ _ .inWork t)
  · refine serveStation_unchanged hready rfl ?_
    unfold resume
    rw [huntAgain_station]
    split
    · rename_i t rest hw hs
      rcases h with h | h
      · exact absurd hw h
      · exact absurd (h.symm.trans hs) (by simp)
    · rfl

end Sys2Proof.Machine
end

section
/-! SUPPORT. What the stations' requests do to tickets in hand and to a station's state: BUMP (R97, R98), RECALL (R100), HOLD_LOW,
PAUSE and OPEN (R101, R102). -/

namespace Sys2Proof.Machine

/-! ### The lines of a ticket (R29, R97, R100) -/

theorem Tab.changeLines_when (t : Tab) (ns : List Nat) (P : Line → Prop) [DecidablePred P] (g : Line → Line) :
    t.changeLines ns (fun x => if P x then g x else x)
      = { t with lines := t.lines.zipIdx.map fun q => if q.2 + 1 ∈ ns ∧ P q.1 then g q.1 else q.1 } := by
  refine congrArg (fun ls => { t with lines := ls }) (List.map_congr_left fun q _ => ?_)
  rw [List.contains_eq_mem, if_congr decide_eq_true_iff rfl rfl]
  by_cases hn : q.2 + 1 ∈ ns <;> simp [hn]

/-- Lines that keep their number, item, quantity, seat and modifiers are shown alike (R92). -/
theorem lineContent_changeLines (t : Tab) (ns : List Nat) {f : Line → Line} (hf : ∀ x, ∃ st, f x = { x with state := st }) (n : Nat) :
    lineContent (t.changeLines ns f) n = lineContent t n := by
  have hline : (t.changeLines ns f).line? n = (t.line? n).map fun x => if ns.contains n then f x else x := by
    cases n with
    | zero => rfl
    | succ k => simp [Tab.line?, Tab.changeLines, List.getElem?_zipIdx, Function.comp_def]
  unfold lineContent
  rw [hline]
  cases t.line? n with
  | none => rfl
  | some x =>
    obtain ⟨st, hst⟩ := hf x
    dsimp only [Option.map_some]
    split
    · rw [hst]
    · rfl

/-! ### BUMP (R97, R98) -/

/-- The tab's side of a BUMP that leaves the tab standing (R97). -/
theorem serveTab_stays {i : Slot} {s : State} (tk : Ticket) (h : (s.tab i).state ≠ .exported ∨ 2 ≤ (s.tab i).live) :
    serveTab i tk s
      = (s.setTab i ((s.tab i).changeLines tk.lines serveLine).oneTicketLess).raised
        (toLanes .tabChanged (s.tab i).followers) := by
  let u := ((s.tab i).changeLines tk.lines serveLine).oneTicketLess
  have hself : (s.setTab i u).tab i = u := State.setTab_tab_self s i u
  have hstays : ¬(u.state = .exported ∧ u.live = 0) := by
    rintro ⟨he, hl⟩
    have hlive : (s.tab i).live - 1 = 0 := hl
    rcases h with h | h
    · exact h he
    · omega
  rw [serveTab, State.modifyTab, touch_eq, hself]
  refine if_neg ?_
  rw [raised_tab, hself]
  exact hstays

/-- Settles O37. -/
theorem bumpServesTicket : Obligations.BumpServesTicket := by
  intro l st tag s hready x
  refine ⟨fun hw => ?_, fun t i hw hi hstays => ?_⟩
  · refine serveStation_unchanged hready rfl ?_
    have hw' : (s.station st).inWork = none := hw
    simp only [bump, huntAgain_station, hw']
  · refine serveStation_answered hready rfl ?_ rfl rfl
    have hw' : (s.station st).inWork = some t := hw
    have hi' : (s.setStation st ((s.station st).bumpTicket t)).findTab t.tab = some i := hi
    simp only [bump, huntAgain_station, hw', modifyStation_huntAgain, huntAgain_findTab, hi']
    rw [serveTab_stays t (by simpa using hstays), huntAgain_tab, setTab_huntAgain, State.setStation_tab]
    have hlines : (s.tab i).changeLines t.lines serveLine = _ :=
      Tab.changeLines_when (s.tab i) t.lines (fun y => y.state = .fired) fun y => { y with state := .served }
    rw [hlines]
    rfl

/-! ### RECALL (R100) -/

/-- A tab whose ticket is recalled: the ticket's SERVED lines FIRED again, one live ticket more (R29, R100). -/
def Tab.unserved (tk : Ticket) (t : Tab) : Tab := { t.changeLines tk.lines unserveLine with live := t.live + 1 }

theorem Tab.unserved_eq (tk : Ticket) (t : Tab) :
    t.unserved tk
      = { t with
          live := t.live + 1
          lines := t.lines.zipIdx.map fun q =>
            if q.2 + 1 ∈ tk.lines ∧ q.1.state = .served then { q.1 with state := .fired } else q.1 } :=
  congrArg (fun u : Tab => { u with live := t.live + 1 })
    (Tab.changeLines_when t tk.lines (fun y => y.state = .served) fun y => { y with state := .fired })

theorem unserveTab_eq (i : Slot) (tk : Ticket) (s : State) :
    unserveTab i tk s = (s.setTab i ((s.tab i).unserved tk)).raised (toLanes .tabChanged (s.tab i).followers) := by
  rw [unserveTab, State.modifyTab, touch_eq, State.setTab_tab_self]
  rfl

theorem unserveLine_shape (x : Line) : ∃ st, unserveLine x = { x with state := st } := by
  unfold unserveLine
  split
  · exact ⟨_, rfl⟩
  · exact ⟨x.state, rfl⟩

theorem findTab_setTab {s : State} {i : Slot} {u : Tab} (hs : u.state = (s.tab i).state) (hn : u.number = (s.tab i).number) (n : Nat) :
    (s.setTab i u).findTab n = s.findTab n := by
  refine findTab_congr fun j => ?_
  unfold State.bears
  rw [State.setTab_tab]
  split
  · subst_vars; rw [hs, hn]
  · rfl

/-- A recalled ticket is shown as before: its lines change in their states alone (R92). -/
theorem ticketContent_unserved {s : State} {tk : Ticket} {i : Slot} (place : TicketState) (hi : s.findTab tk.tab = some i) :
    ticketContent (s.setTab i ((s.tab i).unserved tk)) place tk = ticketContent s place tk := by
  refine ticketContent_congr rfl fun m => ?_
  have hfound : (s.setTab i ((s.tab i).unserved tk)).findTab tk.tab = some i :=
    (findTab_setTab (u := (s.tab i).unserved tk) rfl rfl tk.tab).trans hi
  simp only [State.tabNumbered, hfound, hi, State.setTab_tab_self]
  exact lineContent_changeLines (s.tab i) tk.lines unserveLine_shape m

/-- A request of a station's port that takes a DONE ticket back (R100). -/
theorem recallTicket_returns {p : Port} {st : StationNo} {s : State} {tk : Ticket} {i : Slot} (hopen : (s.station st).state ≠ .closed)
    (hfind : (s.station st).recalls.find? (fun y => y.number = tk.number) = some tk) (hocc : s.occupancy < 256)
    (hroom : (s.station st).inWork = none ∨ (s.station st).stack.length < 2) (hi : s.findTab tk.tab = some i) :
    (let t := (s.setStation st ((s.station st).recallTicket tk)).setTab i ((s.tab i).unserved tk)
     recallTicket st tk.number (huntAgain p s)
      = answer ((huntAgain p t).raised (toLanes .tabChanged (s.tab i).followers)) .ok
        (ticketContent s .inWork tk ++ pushedField (s.station st))) := by
  intro t
  have hpool : s.poolFree ≠ 0 := Nat.sub_ne_zero_of_lt hocc
  have hi' : (s.setStation st ((s.station st).recallTicket tk)).findTab tk.tab = some i := hi
  simp only [recallTicket, huntAgain_station, if_neg hopen, hfind, huntAgain_poolFree, if_neg hpool, stackFull_eq_false hroom,
    modifyStation_huntAgain, huntAgain_findTab, hi', unserveTab_eq, huntAgain_tab, setTab_huntAgain, State.setStation_tab]
  refine answer_congr rfl rfl (congrArg (· ++ pushedField (s.station st)) ?_)
  exact (huntAgain_ticketContent p t .inWork tk).trans
    (ticketContent_unserved (s := s.setStation st ((s.station st).recallTicket tk)) .inWork hi')

/-- Settles O39: the ticket found bears the number asked for. -/
theorem recallReturnsTicket : Obligations.RecallReturnsTicket := by
  intro l st tag n tk i s hready hopen hfind hocc hroom hi
  obtain rfl : tk.number = n := by simpa using List.find?_some hfind
  have hrecall := recallTicket_returns (p := .lane l) hopen hfind hocc hroom hi
  dsimp only at hrecall ⊢
  rw [pushedField_eq, Tab.unserved_eq] at hrecall
  exact serveStation_answered hready rfl hrecall rfl rfl

/-! ### HOLD_LOW, PAUSE and OPEN (R101, R102) -/

/-- A request that replaces a station's record and brings its rail up to date. -/
theorem recomputeRail_modified (p : Port) (st : StationNo) (f : Station → Station) (s : State) :
    recomputeRail st ((huntAgain p s).modifyStation st f)
      = (huntAgain p ((s.setStation st (f (s.station st))).withRail st)).raised
        (railRaised st (s.setStation st (f (s.station st)))) := by
  rw [modifyStation_huntAgain, recomputeRail_huntAgain]

/-- PAUSE and OPEN at a station that moves (R102). -/
theorem setWorking_moves {was asked : StationState} {st : StationNo} {s : State} (p : Port) (hx : (s.station st).state = was)
    (hopen : was ≠ .closed) (hne : was ≠ asked) :
    (let s' := s.setStation st { s.station st with state := asked }
     setWorking asked st (huntAgain p s)
      = answer ((huntAgain p (s'.withRail st)).raised (railRaised st s')) .ok [Field.code (stationStateCode asked)]) := by
  simp only [setWorking, huntAgain_station, hx, if_neg hopen, if_neg hne, recomputeRail_modified]

theorem setWorking_closed {asked : StationState} {st : StationNo} {s : State} (p : Port) (hx : (s.station st).state = .closed) :
    setWorking asked st (huntAgain p s) = answer ((huntAgain p s).raised nobody) .wrongState := by
  rw [raised_nobody]
  exact if_pos ((congrArg Station.state (huntAgain_station s p st)).trans hx)

section
variable {k : Kind} {c : Codec (Option Nat)} {l : Lane} {st : StationNo} {tag : Nat} {s t : State} {asked : StationState}
  {status : Status} {body : List Field} {r : Raised}

/-- PAUSE and OPEN from a station's bound port (R102). -/
theorem pauseOrOpen_lane (h : stationReady l st tag s = true) (hk : (senders k).boundStation = true)
    (hb : setWorking asked st (huntAgain (.lane l) s) = answer ((huntAgain (.lane l) t).raised r) status body)
    (hp : t.ports = s.ports) (ho : t.officeReceiver = s.officeReceiver) :
    serve k c (.lane l) tag (.fields none) (pauseOrOpen asked (.lane l)) s
      = .next (t.answered (.lane l) tag (kindCode k) status body r) :=
  serveStation_answered (block := fun st (_ : Option Nat) => setWorking asked st) h hk hb hp ho

/-- PAUSE and OPEN from the office, which names the station (R102). -/
theorem pauseOrOpen_office (h : officeReady tag s = true) (hk : (senders k).office = true)
    (hb : setWorking asked st (huntAgain .office s) = answer ((huntAgain .office t).raised r) status body)
    (hp : t.ports = s.ports) (ho : t.officeReceiver = s.officeReceiver) :
    serve k c .office tag (.fields (some st.val)) (pauseOrOpen asked .office) s
      = .next (t.answered .office tag (kindCode k) status body r) := by
  refine serve_answered (officeReady_spec h) (mayRequest_office hk s) ?_ hp ho
  simp only [pauseOrOpen, Option.bind_some, fin?_val]
  exact hb

end

/-- Settles O40, one clause after another. -/
theorem holdLowPauseOpen : Obligations.HoldLowPauseOpen := by
  intro l st tag s x moved
  refine ⟨fun hready => ⟨fun on => ?_, fun hx => ?_, fun hx => ?_, fun hx => ?_⟩, fun hready => ⟨fun hx => ?_, fun hx => ?_⟩⟩
  · refine serveStation_answered hready rfl ?_ rfl rfl
    have hcode : holdLowOfCode (if on then 1 else 0) = some on := by cases on <;> rfl
    simp only [holdLow, hcode, recomputeRail_modified]
    rfl
  · exact pauseOrOpen_lane hready rfl (setWorking_moves _ hx nofun nofun) rfl rfl
  · exact pauseOrOpen_lane hready rfl (setWorking_moves _ hx nofun nofun) rfl rfl
  · exact ⟨pauseOrOpen_lane hready rfl (setWorking_closed _ hx) rfl rfl,
      pauseOrOpen_lane hready rfl (setWorking_closed _ hx) rfl rfl⟩
  · exact pauseOrOpen_office hready rfl (setWorking_moves _ hx nofun nofun) rfl rfl
  · exact pauseOrOpen_office hready rfl (setWorking_moves _ hx nofun nofun) rfl rfl

end Sys2Proof.Machine
end

section
/-! SUPPORT. SET_STATION (R104, R105): the configuration, the refused closes, and the close that moves the queue. -/

namespace Sys2Proof.Machine

/-! ### The request read (R104) -/

theorem stationStateOfCode_code (state : StationState) : stationStateOfCode (stationStateCode state) = some state := by
  cases state <;> rfl

theorem readAlternate_val {st : StationNo} {a : Option StationNo} (h : a ≠ some st) : readAlternate st (a.map Fin.val) = some a := by
  cases a with
  | none => rfl
  | some b =>
    have hb : b ≠ st := fun e => h (congrArg some e)
    simp only [readAlternate, Option.map_some, fin?_val, Option.bind_some, if_neg hb]

/-- The status of a SET_STATION that is taken: CLAMPED where the threshold was out of range (R104). -/
def thresholdStatus (th : Nat) : Status := if clampThreshold th = th then .ok else .clamped

theorem setStation_eq {st : StationNo} {a : Option StationNo} (state : StationState) (th : Nat) (s : State) (ha : a ≠ some st) :
    setStation ⟨st.val, stationStateCode state, a.map Fin.val, th⟩ s
      = if state = .closed ∧ (s.station st).state ≠ .closed then closeStation st a (clampThreshold th) (thresholdStatus th) s
        else reconfigure st state a (clampThreshold th) (thresholdStatus th) s := by
  simp only [setStation, fin?_val, stationStateOfCode_code, readAlternate_val ha]
  rfl

/-! ### The configuration replaced (R104) -/

/-- A station's record with a new configuration. -/
def Station.configured (state : StationState) (a : Option StationNo) (th : Nat) (x : Station) : Station :=
  { x with state := state, alternate := a, threshold := th }

theorem stationFigures_withRail (i st : StationNo) (s : State) (moved : Nat) :
    stationFigures ((s.withRail i).station st) moved = stationFigures (s.station st) moved := by
  rw [withRail_station]
  split
  · subst_vars; rfl
  · rfl

theorem reconfigure_eq (p : Port) (st : StationNo) (state : StationState) (a : Option StationNo) (th : Nat) (status : Status)
    (s : State) :
    (let set := s.setStation st ((s.station st).configured state a th)
     reconfigure st state a th status (huntAgain p s)
      = answer ((huntAgain p (set.withRail st)).raised (railRaised st set)) status (stationFigures (set.station st) 0)) := by
  simp only [reconfigure, configure, recomputeRail_modified, raised_station, huntAgain_station, stationFigures_withRail]
  rfl

/-! ### A close refused (R105) -/

section
variable {st : StationNo} {a : Option StationNo} {th : Nat} {status : Status} {s : State}

theorem closeStation_busy (h : (s.station st).inWork ≠ none ∨ (s.station st).stack ≠ []) :
    closeStation st a th status s = answer s .stationBusy :=
  if_pos (by simpa [Option.isSome_iff_ne_none] using h)

/-- With no ticket in hand a close is judged by its queue. -/
theorem closeStation_idle (hw : (s.station st).inWork = none) (hs : (s.station st).stack = []) :
    closeStation st a th status s
      = if (s.station st).queue = [] then reconfigure st .closed a th status s
        else match a with
          | none => answer s .ticketsStranded
          | some b =>
            if (s.station b).state = .closed then answer s .ticketsStranded
            else if 64 < (s.station b).queue.length + (s.station st).queue.length then
              answer s .queueFull [Field.small b.val, Field.number (s.station b).queue.length]
            else
              let s' := recomputeRails [st, b] (moveQueue st b (configure st .closed a th s))
              answer s' status (stationFigures (s'.station st) (s.station st).queue.length) := by
  have hidle : ¬((s.station st).inWork.isSome || (s.station st).stack ≠ []) = true := by simp [hw, hs]
  unfold closeStation
  rw [if_neg hidle]
  rfl

end

/-! ### The queue moved (R105) -/

theorem State.setStation_setStation (s : State) (i : StationNo) (x y : Station) :
    (s.setStation i x).setStation i y = s.setStation i y := by
  have : (s.stations.set i x).set i y = s.stations.set i y := table_ext fun j => by
    by_cases h : j = i
    · subst h; simp
    · rw [get_set_ne _ _ h, get_set_ne _ _ h, get_set_ne _ _ h]
  simp only [State.setStation, this]

/-- What stands in one station's last reported rail tells no other port. -/
theorem railRaised_withRail {i j : StationNo} (s : State) (h : j ≠ i) : railRaised j (s.withRail i) = railRaised j s := by
  unfold railRaised
  rw [withRail_railOf, withRail_station, if_neg h]

/-- Two rails recomputed as a port's request meets them. -/
theorem recomputeRails_two (p : Port) {i j : StationNo} (s : State) (h : j ≠ i) :
    recomputeRails [i, j] (huntAgain p s)
      = (huntAgain p ((s.withRail i).withRail j)).raised (both (railRaised i s) (railRaised j s)) := by
  have hcommute (r : Raised) (t : State) : recomputeRail j (t.raised r) = (recomputeRail j t).raised r := by
    rw [recomputeRail_eq, recomputeRail_eq, raised_raised, both_comm, ← raised_raised]
    rfl
  simp only [recomputeRails, List.foldl_cons, List.foldl_nil]
  rw [recomputeRail_huntAgain, hcommute, recomputeRail_huntAgain, railRaised_withRail s h, raised_raised, both_comm]

/-- A station closed with its queue moved to another (R105). -/
def State.queueMoved (st b : StationNo) (a : Option StationNo) (th : Nat) (s : State) : State :=
  (s.setStation st { (s.station st).configured .closed a th with queue := [] }).setStation b
    { s.station b with queue := (s.station b).queue ++ (s.station st).queue.map (Ticket.movedTo b) }

theorem moveQueue_eq (p : Port) {st b : StationNo} (a : Option StationNo) (th : Nat) (s : State) (h : b ≠ st) :
    moveQueue st b (configure st .closed a th (huntAgain p s)) = huntAgain p (s.queueMoved st b a th) := by
  simp only [moveQueue, configure, modifyStation_huntAgain, huntAgain_station, State.setStation_station_self,
    State.setStation_setStation, State.setStation_station_ne _ _ h]
  rfl

theorem queueMoved_station {st b : StationNo} {a : Option StationNo} {th : Nat} {s : State} (h : b ≠ st) :
    (s.queueMoved st b a th).station st = { (s.station st).configured .closed a th with queue := [] } := by
  rw [State.queueMoved, State.setStation_station_ne _ _ h.symm, State.setStation_station_self]

/-- The close that moves the queue, as a port's request meets it (R105). -/
theorem closeStation_moves (p : Port) {st b : StationNo} {th : Nat} {status : Status} {s : State} (h : b ≠ st)
    (hw : (s.station st).inWork = none) (hs : (s.station st).stack = []) (hq : (s.station st).queue ≠ [])
    (hb : (s.station b).state ≠ .closed) (hroom : (s.station b).queue.length + (s.station st).queue.length ≤ 64) :
    (let t := s.queueMoved st b (some b) th
     closeStation st (some b) th status (huntAgain p s)
      = answer ((huntAgain p ((t.withRail st).withRail b)).raised (both (railRaised st t) (railRaised b t))) status
        (stationFigures (t.station st) (s.station st).queue.length)) := by
  rw [closeStation_idle (by simpa using hw) (by simpa using hs)]
  simp only [huntAgain_station, if_neg hq, if_neg hb, if_neg (Nat.not_lt.mpr hroom), moveQueue_eq p (some b) th s h,
    recomputeRails_two p _ h, raised_station, stationFigures_withRail]

/-- Settles O41: not a close or a close with nothing to move, the three refusals, and the close that moves the queue. -/
theorem setStationConfigures : Obligations.SetStationConfigures := by
  intro tag st state a th s hready ha x kept status figures c set
  let f : SetStationFields := ⟨st.val, stationStateCode state, a.map Fin.val, th⟩
  have hserve {t : State} {code : Status} {body : List Field} {r : Raised}
      (hb : setStation f (huntAgain .office s) = answer ((huntAgain .office t).raised r) code body)
      (hp : t.ports = s.ports) (ho : t.officeReceiver = s.officeReceiver) :
      exec c s = .next (t.answered .office tag 0x21 code body r) :=
    serve_answered (officeReady_spec hready) (mayRequest_office rfl s) hb hp ho
  have hclose (hc : state = .closed) (hx : x.state ≠ .closed) :
      setStation f (huntAgain .office s) = closeStation st a kept status (huntAgain .office s) :=
    (setStation_eq state th _ ha).trans (if_pos ⟨hc, hx⟩)
  have hrefused (hc : state = .closed) (hx : x.state ≠ .closed) {code : Status} {body : List Field}
      (hb : closeStation st a kept status (huntAgain .office s) = answer (huntAgain .office s) code body) :
      exec c s = .next (s.answered .office tag 0x21 code body nobody) :=
    hserve (by rw [raised_nobody]; exact (hclose hc hx).trans hb) rfl rfl
  refine ⟨fun h => ?_, fun hc hx hbusy => hrefused hc hx (closeStation_busy hbusy), fun hc hx hw hs hq hb => ?_,
    fun b hab hc hx hw hs hq hb hfull => ?_, fun b hab hc hx hw hs hq hb hroom => ?_⟩
  · have hblock : setStation f (huntAgain .office s) = reconfigure st state a kept status (huntAgain .office s) := by
      refine (setStation_eq state th _ ha).trans ?_
      split
      · rename_i hclosing
        obtain ⟨hq, hw, hs⟩ := h.resolve_left (not_not.mpr hclosing)
        rw [hclosing.1]
        exact (closeStation_idle (s := huntAgain .office s) hw hs).trans (if_pos hq)
      · rfl
    have hfigures : stationFigures (set.station st) 0 = figures 0 := by rw [show set.station st = _ from get_set_self _ st _]; rfl
    rw [← hfigures]
    exact hserve (hblock.trans (reconfigure_eq .office st state a kept status s)) rfl rfl
  · refine hrefused hc hx ((closeStation_idle (s := huntAgain .office s) hw hs).trans ((if_neg hq).trans ?_))
    cases a with
    | none => rfl
    | some b => exact if_pos (hb b rfl)
  · subst hab
    refine hrefused hc hx ((closeStation_idle (s := huntAgain .office s) hw hs).trans ((if_neg hq).trans ?_))
    exact (if_neg hb).trans (if_pos hfull)
  · subst hab hc
    have hne : b ≠ st := fun e => ha (congrArg some e)
    have hmoves := closeStation_moves .office (th := kept) (status := status) hne hw hs hq hb hroom
    dsimp only at hmoves ⊢
    rw [queueMoved_station hne] at hmoves
    exact hserve ((hclose rfl hx).trans hmoves) rfl rfl

end Sys2Proof.Machine
end

section
/-! SUPPORT. SET_PORT as a change of standing (R169 to R171): the port reset, and the station bound (R87, R88). -/

namespace Sys2Proof.Machine

/-! ### A step that holds a port reset (R170, R180) -/

/-- SET_PORT from the office, taken. -/
theorem setPort_concluded {tag : Nat} {s : State} (f : SetPortFields) (h : officeReady tag s = true) :
    exec (.setPort .office tag (.fields f)) s
      = .next (conclude .office tag .setPort (resetLane f s) (huntAgain .office s) (setPortRequest f (huntAgain .office s))) := by
  obtain ⟨hr, ht, ho, hc, ha⟩ := officeReady_spec h
  show execSetPort .office tag (.fields f) s = _
  have hm : mayRequest .office .setPort (huntAgain .office s) = true := rfl
  simp only [execSetPort, receive_taken _ hr ho hc, handle, if_neg ht, huntAgain_awaitsReply, ha, hm, if_true]
  rfl

/-- An emptied event set rises to whatever the step raises in it afterwards. -/
theorem withNotice_fresh {e : PortEntry} (before after : PortEntry) (h : e.pendingSet = 0) :
    withNotice true before after = withNotice false e after := by
  rw [withNotice_eq, withNotice_eq, h]
  simp

/-- The reply and the notices of a request whose step resets a port: `State.answered`, the reset port's rise judged from its
emptied set. -/
theorem conclude_reset {tag : Nat} {k : Kind} {l : Lane} {u t : State} (status : Status) (body : List Field) (r : Raised)
    (hl : (t.port l).pendingSet = 0) (hm : ∀ m, m ≠ l → t.port m = u.port m) (ho : t.officeReceiver = .hunting) :
    conclude .office tag k (some l) u (answer (t.raised r) status body) = t.answered .office tag (kindCode k) status body r := by
  have hports : (conclude .office tag k (some l) u (answer (t.raised r) status body)).ports
      = (t.answered .office tag (kindCode k) status body r).ports := table_ext fun m => by
    refine (tableOf_get _ m).trans (Eq.trans ?_ (tableOf_get _ m).symm)
    have he : (deliver .office tag (kindCode k) (answer (t.raised r) status body)).port m
        = { t.port m with events := (t.port m).events ||| r (.lane m) } := raised_port r t m
    have hbefore : withNotice (some l = some m) (u.port m) { t.port m with events := (t.port m).events ||| r (.lane m) }
        = withNotice false (t.port m) { t.port m with events := (t.port m).events ||| r (.lane m) } := by
      by_cases h : l = m
      · subst h
        simpa using withNotice_fresh _ _ hl
      · rw [hm m fun e => h e.symm]
        simp [h]
    rw [he, hbefore]
    simpa using withNotice_gains (t.port m) [] (r (.lane m))
  refine (congrArg (fun x =>
    { conclude .office tag k (some l) u (answer (t.raised r) status body) with ports := x }) hports).trans ?_
  simp [conclude, composeNotices, deliver, sendReply, sendFrame, answer, State.raised, State.answered, ho]

/-! ### The request read (R169) -/

theorem resetLane_some {f : SetPortFields} {l : Lane} {s : State} (h : resetLane f s = some l) :
    ∃ r st, fin? 16 f.port = some l ∧ standing? f = some (r, st) ∧ changesStanding r st (s.port l) = true := by
  unfold resetLane at h
  split at h
  · split at h
    · obtain rfl := Option.some.inj h
      exact ⟨_, _, by assumption, by assumption, by assumption⟩
    · cases h
  · cases h

/-- A SET_PORT that changes a lane's standing. -/
theorem setPortRequest_changes {f : SetPortFields} {l : Lane} {r : Role} {st : Option StationNo} {s : State}
    (hl : fin? 16 f.port = some l) (hst : standing? f = some (r, st)) (hc : changesStanding r st (s.port l) = true) :
    (let q := changeStanding l f r st s
     setPortRequest f s = answer q.2 q.1 (portFields (q.2.port l))) := by
  simp only [setPortRequest, hl, hst, hc, if_true]

theorem State.setPort_setPort (s : State) (l : Lane) (e e' : PortEntry) : (s.setPort l e).setPort l e' = s.setPort l e' := by
  have : (s.ports.set l e).set l e' = s.ports.set l e' := table_ext fun j => by
    by_cases h : j = l
    · subst h; simp
    · rw [get_set_ne _ _ h, get_set_ne _ _ h, get_set_ne _ _ h]
  simp only [State.setPort, this]

/-! ### Binding (R88) -/

/-- A station bound to a port: the two records name one another, and RAIL_CHANGED goes out where the rail is not empty (R88). -/
theorem bindStation_eq (l : Lane) (st : StationNo) (v : State) :
    bindStation l st v
      = State.raised (if v.railOf st = (none, none) then nobody else toLanes .railChanged [l])
        ((v.setStation st { v.station st with port := some l, rail := v.railOf st }).setPort l
          { v.port l with bound := some st }) := by
  let w := (v.setStation st { v.station st with port := some l, rail := (none, none) }).setPort l { v.port l with bound := some st }
  have hst : w.station st = { v.station st with port := some l, rail := (none, none) } :=
    State.setStation_station_self v st _
  have hrail : w.railOf st = v.railOf st := railOf_congr rfl (by rw [hst]; exact ⟨rfl, rfl, rfl⟩)
  show recomputeRail st w = _
  rw [recomputeRail_eq, railRaised, State.withRail, hrail, hst]
  refine congrArg (State.raised _) ?_
  exact congrArg (State.setPort · l { v.port l with bound := some st })
    (State.setStation_setStation v st _ { v.station st with port := some l, rail := v.railOf st })

/-! ### The port reset of a lane that owns nothing (R170) -/

/-- A lane out of every unlock set and follower list, the bound port of no station, its result list empty (R170). -/
def State.leftBy (l : Lane) (s : State) : State := { leaveTabs l (unbind l s) with results := s.results.set l [] }

theorem disownAll_unowned {l : Lane} {s : State} (h : ∀ i, (s.tab i).owner ≠ some l) (is : List Slot) : is.foldl (disown l) s = s := by
  induction is with
  | nil => rfl
  | cons i is ih =>
    rw [List.foldl_cons, show disown l s i = s from if_neg (h i)]
    exact ih

theorem leaveTabs_tab (l : Lane) (s : State) (i : Slot) :
    (leaveTabs l s).tab i
      = { s.tab i with
          unlocked := (s.tab i).unlocked.filter fun x => x ≠ l
          followers := (s.tab i).followers.filter fun x => x ≠ l } := tableOf_get _ i

theorem resetPort_unowned {l : Lane} {s : State} (ht : s.token ≠ .lane l) (ho : ∀ i, (s.tab i).owner ≠ some l) :
    resetPort l s = (s.leftBy l).setPort l (s.port l).cleared := by
  have hfold : (List.finRange 128).foldl (disown l) (leaveTabs l (unbind l s)) = leaveTabs l (unbind l s) :=
    disownAll_unowned (fun i => by rw [leaveTabs_tab]; exact ho i) _
  have htoken : (leaveTabs l (unbind l s)).token ≠ .lane l := ht
  simp only [resetPort, hfold, if_neg htoken]
  rfl

theorem leftBy_station (l : Lane) (s : State) (st : StationNo) :
    (s.leftBy l).station st
      = { s.station st with port := if (s.station st).port = some l then none else (s.station st).port } := tableOf_get _ st

theorem leftBy_railOf (l : Lane) (s : State) (st : StationNo) : (s.leftBy l).railOf st = s.railOf st :=
  railOf_congr rfl (by rw [leftBy_station]; exact ⟨rfl, rfl, rfl⟩)

/-! ### The change of standing (R169, R171) -/

theorem cleared_pendingSet (e : PortEntry) : e.cleared.pendingSet = 0 := BitVec.zero_and

theorem PortEntry.withFlags_station (f : SetPortFields) (e : PortEntry) :
    e.withFlags f .station = { e with role := .station, supervisor := false, notices := f.notices } := by
  simp [PortEntry.withFlags]

theorem portFields_reset {e : PortEntry} (hm : e.mask = 0xFFF#12) (ho : e.outstanding = none) :
    portFields e
      = [Field.code (roleCode e.role)] ++ optField (fun st : StationNo => [Field.small st.val]) e.bound
        ++ [Field.flag e.supervisor, Field.flag e.notices, Field.events 0xFFF#12, Field.presence false] := by
  simp [portFields, hm, ho, optField]

/-- What a SET_PORT answers that changes a lane's standing: `x` is the entry that it leaves the lane. -/
theorem setPort_changes {tag : Nat} {f : SetPortFields} {l : Lane} {r : Role} {st : Option StationNo} {s t : State} {x : PortEntry}
    {status : Status} {ev : Raised} (h : officeReady tag s = true) (hl : f.port = l.val) (hst : standing? f = some (r, st))
    (hc : changesStanding r st (s.port l) = true)
    (hb : changeStanding l f r st (huntAgain .office s) = (status, (huntAgain .office (t.setPort l x)).raised ev))
    (hp : t.ports = s.ports) (hx : x.pendingSet = 0) (hm : x.mask = 0xFFF#12) (ho : x.outstanding = none) :
    exec (.setPort .office tag (.fields f)) s
      = .next (State.answered .office tag 0x50 status
        ([Field.code (roleCode x.role)] ++ optField (fun st : StationNo => [Field.small st.val]) x.bound
          ++ [Field.flag x.supervisor, Field.flag x.notices, Field.events 0xFFF#12, Field.presence false])
        ev { t with ports := s.ports.set l x }) := by
  have hl' : fin? 16 f.port = some l := by rw [hl, fin?_val]
  have hlane : resetLane f s = some l := by simp only [resetLane, hl', hst, hc, if_true]
  have hport (m : Lane) : (huntAgain .office (t.setPort l x)).port m = if m = l then x else s.port m := by
    refine (State.setPort_port t l m x).trans ?_
    rw [State.port, hp]
    rfl
  have hfields : portFields (((huntAgain .office (t.setPort l x)).raised ev).port l) = portFields x := by
    rw [raised_port, hport, if_pos rfl]
    rfl
  have hreq := setPortRequest_changes (s := huntAgain .office s) hl' hst hc
  dsimp only at hreq
  rw [hb] at hreq
  have hself : (huntAgain .office (t.setPort l x)).port l = x := (hport l).trans (if_pos rfl)
  rw [setPort_concluded f h, hlane, hreq]
  dsimp only
  rw [hfields, conclude_reset (u := huntAgain .office s) status _ ev (by rw [hself]; exact hx) (fun m hne => (hport m).trans (if_neg hne)) rfl,
    answered_huntAgain, portFields_reset hm ho, ← hp]
  rfl

theorem applyFlags_setPort (l : Lane) (f : SetPortFields) (r : Role) (t : State) (e : PortEntry) :
    applyFlags l f r (t.setPort l e) = t.setPort l (e.withFlags f r) := by
  rw [applyFlags, State.setPort_port_self, State.setPort_setPort]

section
variable {l : Lane} {f : SetPortFields} {s : State} (r : Role) {st : StationNo} (ht : s.token ≠ .lane l)
  (ho : ∀ i, (s.tab i).owner ≠ some l)
include ht ho

/-- A lane that comes to be OFF or a till (R170, R171). -/
theorem changeStanding_unbound :
    changeStanding l f r none s = (.ok, (s.leftBy l).setPort l ((s.port l).cleared.withFlags f r)) := by
  simp only [changeStanding, resetPort_unowned ht ho, applyFlags_setPort]

/-- A station that has another bound port refuses, after the port reset (R171). -/
theorem changeStanding_busy (h : ((s.leftBy l).station st).port ≠ none) :
    changeStanding l f r (some st) s = (.stationBusy, (s.leftBy l).setPort l (s.port l).cleared) := by
  have hbusy : (((s.leftBy l).setPort l (s.port l).cleared).station st).port.isSome = true := Option.isSome_iff_ne_none.mpr h
  simp only [changeStanding, resetPort_unowned ht ho, hbusy, if_true]

/-- A station with no other bound port is bound (R88, R171). -/
theorem changeStanding_bound (h : ((s.leftBy l).station st).port = none) :
    changeStanding l f r (some st) s
      = (.ok, State.raised (if s.railOf st = (none, none) then nobody else toLanes .railChanged [l])
        (((s.leftBy l).setStation st { s.station st with port := some l, rail := s.railOf st }).setPort l
          { (s.port l).cleared.withFlags f r with bound := some st })) := by
  have hfree : ¬(((s.leftBy l).setPort l (s.port l).cleared).station st).port.isSome = true := by
    rw [State.setPort_station, h]
    nofun
  have hrail : ((s.leftBy l).setPort l ((s.port l).cleared.withFlags f r)).railOf st = s.railOf st := leftBy_railOf l s st
  simp only [changeStanding, resetPort_unowned ht ho, if_neg hfree]
  simp only [applyFlags_setPort, bindStation_eq, hrail, State.setPort_station, State.setPort_port_self, leftBy_station]
  refine congrArg (fun t => (Status.ok, State.raised _ t)) ?_
  exact State.setPort_setPort ((s.leftBy l).setStation st _) l _ _

end

/-- Settles O13: the lane gives up neither a tab nor the token, so its port reset is `State.leftBy`. -/
theorem setPortChangesStanding : Obligations.SetPortChangesStanding := by
  intro tag f l s hready hl htoken howner e left reply
  have hempty : e.pendingSet = 0 := cleared_pendingSet (s.port l)
  refine ⟨fun r hr hrole hstation hne => ?_, fun st hrole hstation hne => ?_⟩
  · have hst : standing? f = some (r, none) := by
      unfold standing?
      rw [hrole, hstation]
      cases r with
      | off => rfl
      | till => rfl
      | station => exact absurd rfl hr
    refine setPort_changes (t := s.leftBy l) (ev := nobody) hready hl hst (by simp [changesStanding, hne]) ?_ rfl hempty rfl rfl
    rw [raised_nobody]
    exact changeStanding_unbound (s := huntAgain .office s) r htoken howner
  · have hst : standing? f = some (.station, some st) := by
      simp only [standing?, hrole, hstation, roleOfCode, fin?_val, Option.map_some]
    have hc : changesStanding .station (some st) (s.port l) = true := by
      rcases hne with h | h <;> simp [changesStanding, Ne.symm h]
    refine ⟨fun hfree => ?_, fun hbusy => ?_⟩
    · have hbound := changeStanding_bound (s := huntAgain .office s) (f := f) .station htoken howner hfree
      rw [PortEntry.withFlags_station] at hbound
      exact setPort_changes (t := (s.leftBy l).setStation st { s.station st with port := some l, rail := s.railOf st })
        hready hl hst hc hbound rfl hempty rfl rfl
    · refine setPort_changes (t := s.leftBy l) (ev := nobody) hready hl hst hc ?_ rfl hempty rfl rfl
      rw [raised_nobody]
      exact changeStanding_busy (s := huntAgain .office s) .station htoken howner hbusy

end Sys2Proof.Machine
end

section
/-! SUPPORT. What a port reset clears (R88, R170), whatever the lane owned or held. -/

namespace Sys2Proof.Machine

/-! ### Transmit lists are untouched by tabs that are given up -/

@[simp] theorem raised_transmit (r : Raised) (s : State) (m : Lane) : ((s.raised r).port m).transmit = (s.port m).transmit := by
  rw [raised_port]

theorem closeEntries_transmit (v : Verdict) (es : List Entry) (s : State) (m : Lane) :
    ((es.foldl (closeEntry v) s).port m).transmit = (s.port m).transmit := by
  induction es generalizing s with
  | nil => rfl
  | cons e es ih =>
    rw [List.foldl_cons, ih, closeEntry_eq, raised_transmit]
    rfl

theorem releaseSplit_transmit (i : Slot) (s : State) (m : Lane) : ((releaseSplit i s).port m).transmit = (s.port m).transmit := by
  unfold releaseSplit
  dsimp only
  rw [touch_eq, raised_transmit]
  exact closeEntries_transmit .stale _ _ m

theorem loseOwner_transmit (i : Slot) (s : State) (m : Lane) : ((loseOwner i s).port m).transmit = (s.port m).transmit := by
  unfold loseOwner
  dsimp only
  split
  · rw [touch_eq, raised_transmit]
    rfl
  · exact releaseSplit_transmit i _ m

/-! ### Tabs given up (R152, R163) -/

/-- A tab without its settle owner: what a port's unlock and follower sets say of it stays. -/
structure Tab.GivenUp (t u : Tab) : Prop where
  unlocked : u.unlocked = t.unlocked
  followers : u.followers = t.followers
  owner : u.owner = none

theorem loseOwner_tabs (i : Slot) (s : State) : ∃ u, (loseOwner i s).tabs = s.tabs.set i u ∧ (s.tab i).GivenUp u := by
  unfold loseOwner
  dsimp only
  split
  · exact ⟨_, (same_touch i _).tabs, rfl, rfl, rfl⟩
  · refine ⟨_, (releaseSplit_same i _).tabs.trans (congrArg State.tabs (State.setTab_setTab s i _ _)), ?_, ?_, rfl⟩
    all_goals rw [State.modifyTab, State.setTab_tab_self]

/-- What giving up the tabs of a list of slots leaves of a lane: it owns none of them, and no set, owner or transmit list has
come to it. -/
structure Disowned (l : Lane) (is : List Slot) (s t : State) : Prop where
  transmit : ∀ m, (t.port m).transmit = (s.port m).transmit
  unlocked : ∀ i, (t.tab i).unlocked = (s.tab i).unlocked
  followers : ∀ i, (t.tab i).followers = (s.tab i).followers
  kept : ∀ i, (s.tab i).owner ≠ some l → (t.tab i).owner ≠ some l
  gone : ∀ i ∈ is, (t.tab i).owner ≠ some l

theorem disowned_setTab {l : Lane} {i : Slot} {s t : State} {u : Tab} (ht : t.tabs = s.tabs.set i u) (hu : (s.tab i).GivenUp u)
    (hp : ∀ m, (t.port m).transmit = (s.port m).transmit) : Disowned l [i] s t := by
  obtain ⟨hunlocked, hfollowers, howner⟩ := hu
  have htab (j : Slot) : t.tab j = if j = i then u else s.tab j :=
    (State.tab_congr (s := s.setTab i u) ht j).trans (State.setTab_tab s i j u)
  have hnone : u.owner ≠ some l := by rw [howner]; nofun
  refine ⟨hp, fun j => ?_, fun j => ?_, fun j hj => ?_, fun j hj => ?_⟩
  · rw [htab]; split
    · subst_vars; exact hunlocked
    · rfl
  · rw [htab]; split
    · subst_vars; exact hfollowers
    · rfl
  · rw [htab]; split
    · exact hnone
    · exact hj
  · rw [htab, if_pos (List.mem_singleton.mp hj)]
    exact hnone

theorem disown_disowned (l : Lane) (s : State) (i : Slot) : Disowned l [i] s (disown l s i) := by
  unfold disown
  split
  · split
    · obtain ⟨u, htabs, hu⟩ := loseOwner_tabs i s
      exact disowned_setTab htabs hu fun m => loseOwner_transmit i s m
    · refine disowned_setTab (same_touch i _).tabs ⟨rfl, rfl, rfl⟩ fun m => ?_
      rw [touch_eq, raised_transmit]
      rfl
  · rename_i h
    refine ⟨fun _ => rfl, fun _ => rfl, fun _ => rfl, fun _ => id, fun j hj => ?_⟩
    rw [List.mem_singleton.mp hj]
    exact h

theorem disownAll_disowned (l : Lane) (is : List Slot) (s : State) : Disowned l is s (is.foldl (disown l) s) := by
  induction is generalizing s with
  | nil => exact ⟨fun _ => rfl, fun _ => rfl, fun _ => rfl, fun _ => id, nofun⟩
  | cons i is ih =>
    obtain ⟨htransmit, hunlocked, hfollowers, hkept, hgone⟩ := disown_disowned l s i
    obtain ⟨htransmit', hunlocked', hfollowers', hkept', hgone'⟩ := ih (disown l s i)
    refine ⟨fun m => (htransmit' m).trans (htransmit m), fun j => (hunlocked' j).trans (hunlocked j),
      fun j => (hfollowers' j).trans (hfollowers j), fun j hj => hkept' j (hkept j hj), fun j hj => ?_⟩
    rcases List.mem_cons.mp hj with rfl | hj
    · exact hkept' j (hgone j (List.mem_singleton_self j))
    · exact hgone' j hj

/-! ### What a change of standing leaves of the port (R170, R171) -/

/-- What a port reset leaves of a lane, and what its new standing keeps so; `s` is the state before it. -/
structure Vacated (l : Lane) (s t : State) : Prop where
  tabs : ∀ i, l ∉ (t.tab i).unlocked ∧ l ∉ (t.tab i).followers ∧ (t.tab i).owner ≠ some l
  token : t.token ≠ .lane l
  results : t.resultsOf l = []
  outstanding : (t.port l).outstanding = none
  mask : (t.port l).mask = 0xFFF#12
  transmit : (t.port l).transmit = (s.port l).transmit.take 1
  events : (t.port l).events = 0 ∨ (t.port l).events = eventBit .railChanged

theorem returnToken_transmit (s : State) (m : Lane) : ((returnToken s).port m).transmit = (s.port m).transmit := by
  rw [returnToken, announceQueue_eq, raiseOffice_eq, raised_transmit, raised_transmit]
  rfl

theorem returnToken_token (s : State) : (returnToken s).token = .office := by
  rw [returnToken, announceQueue_eq, raiseOffice_eq]
  rfl

/-- The rest of a port reset, once the lane owns no tab (R170). -/
theorem Disowned.vacated {l : Lane} {s v : State} (hv : Disowned l (List.finRange 128) (leaveTabs l (unbind l s)) v) :
    (let w := if v.token = .lane l then returnToken v else v
     Vacated l s (State.setPort { w with results := w.results.set l [] } l (w.port l).cleared)) := by
  intro w
  have hw : w.tabs = v.tabs ∧ w.token ≠ .lane l ∧ (w.port l).transmit = (s.port l).transmit := by
    have htransmit : (v.port l).transmit = (s.port l).transmit := hv.transmit l
    by_cases h : v.token = .lane l
    · have hwv : w = returnToken v := if_pos h
      rw [hwv, returnToken_token, returnToken_transmit]
      exact ⟨(same_returnToken v).tabs, nofun, htransmit⟩
    · have hwv : w = v := if_neg h
      rw [hwv]
      exact ⟨rfl, h, htransmit⟩
  obtain ⟨htabs, htoken, htransmit⟩ := hw
  refine ⟨fun i => ?_, htoken, get_set_self _ l _, ?_, ?_, ?_, ?_⟩
  · have htab : (State.setPort { w with results := w.results.set l [] } l (w.port l).cleared).tab i = v.tab i :=
      State.tab_congr htabs i
    rw [htab, hv.unlocked, hv.followers, leaveTabs_tab]
    exact ⟨by simp, by simp, hv.gone i (List.mem_finRange i)⟩
  all_goals rw [State.setPort_port_self]
  · rfl
  · rfl
  · exact congrArg (List.take 1) htransmit
  · exact .inl rfl

theorem resetPort_vacated (l : Lane) (s : State) : Vacated l s (resetPort l s) := by
  have hv := disownAll_disowned l (List.finRange 128) (leaveTabs l (unbind l s))
  unfold resetPort
  dsimp only
  generalize (List.finRange 128).foldl (disown l) (leaveTabs l (unbind l s)) = v at hv ⊢
  exact hv.vacated

theorem resetPort_events (l : Lane) (s : State) : ((resetPort l s).port l).events = 0 := by
  unfold resetPort
  dsimp only
  generalize (List.finRange 128).foldl (disown l) (leaveTabs l (unbind l s)) = v
  rw [State.setPort_port_self]
  rfl

theorem applyFlags_events (l : Lane) (f : SetPortFields) (r : Role) (t : State) :
    ((applyFlags l f r t).port l).events = (t.port l).events := by
  rw [applyFlags, State.setPort_port_self]
  rfl

theorem Vacated.applyFlags {l : Lane} {s t : State} (h : Vacated l s t) (f : SetPortFields) (r : Role) :
    Vacated l s (applyFlags l f r t) := by
  obtain ⟨htabs, htoken, hresults, hout, hmask, htransmit, hevents⟩ := h
  have hport : (Machine.applyFlags l f r t).port l = (t.port l).withFlags f r := State.setPort_port_self t l _
  refine ⟨htabs, htoken, hresults, ?_, ?_, ?_, ?_⟩
  all_goals rw [hport]; assumption

theorem Vacated.bindStation {l : Lane} {s t : State} (h : Vacated l s t) (he : (t.port l).events = 0) (st : StationNo) :
    Vacated l s (bindStation l st t) := by
  obtain ⟨htabs, htoken, hresults, hout, hmask, htransmit, -⟩ := h
  rw [bindStation_eq]
  refine ⟨htabs, htoken, hresults, ?_, ?_, ?_, ?_⟩
  all_goals rw [raised_port, State.setPort_port_self]
  · exact hout
  · exact hmask
  · exact htransmit
  · rw [he]
    split
    · exact .inl (by simp [nobody])
    · exact .inr (by simp [toLanes])

theorem changeStanding_vacated (l : Lane) (f : SetPortFields) (r : Role) (st : Option StationNo) (s : State) :
    Vacated l s (changeStanding l f r st s).2 := by
  have h := resetPort_vacated l s
  have he := resetPort_events l s
  unfold changeStanding
  generalize resetPort l s = t at h he ⊢
  dsimp only
  split
  · exact h.applyFlags f r
  split
  · exact h
  · exact (h.applyFlags f r).bindStation ((applyFlags_events l f r t).trans he) _

/-- The frames of the reset port after the step: the one being sent, and at most the notice of a rail (R88, R170). -/
theorem withNotice_vacated {l : Lane} {s t : State} (h : Vacated l s t) (fresh : Bool) (before : PortEntry) :
    (withNotice fresh before (t.port l)).transmit = (s.port l).transmit.take 1
      ∨ (withNotice fresh before (t.port l)).transmit = (s.port l).transmit.take 1 ++ [.notice (eventBit .railChanged)] := by
  rw [withNotice_eq]
  dsimp only
  rw [h.transmit]
  split
  · rename_i hn
    right
    simp only [Bool.and_eq_true, decide_eq_true_eq] at hn
    have hne : (t.port l).pendingSet ≠ 0 := hn.2
    have hp : (t.port l).pendingSet = eventBit .railChanged := by
      rcases h.events with he | he
      · exact absurd (by simp [PortEntry.pendingSet, he]) hne
      · rw [PortEntry.pendingSet, he, h.mask]; decide
    rw [hp]
  · exact .inl (List.append_nil _)

/-- The reply to the office and the notices of a step change nothing of a vacated lane but its frames. -/
theorem Vacated.concluded {l : Lane} {s v u : State} (h : Vacated l s v) (tag : Nat) (k : Kind) (fresh : Option Lane) (status : Status)
    (body : List Field) :
    (let t := conclude .office tag k fresh u (answer v status body)
     (∀ i, l ∉ (t.tab i).unlocked ∧ l ∉ (t.tab i).followers ∧ (t.tab i).owner ≠ some l) ∧ t.token ≠ .lane l
      ∧ (t.port l).outstanding = none ∧ t.resultsOf l = [] ∧ (t.port l).mask = 0xFFF#12
      ∧ ((t.port l).transmit = (s.port l).transmit.take 1
        ∨ (t.port l).transmit = (s.port l).transmit.take 1 ++ [.notice (eventBit .railChanged)])) := by
  intro t
  have hport : t.port l = withNotice (fresh = some l) (u.port l) (v.port l) := tableOf_get _ l
  refine ⟨h.tabs, h.token, ?_, h.results, ?_, ?_⟩
  all_goals rw [hport]
  · rw [withNotice_eq]
    exact h.outstanding
  · rw [withNotice_eq]
    exact h.mask
  · exact withNotice_vacated h _ _

/-- Settles O14: the state the block leaves is vacated. -/
theorem portResetClears : Obligations.PortResetClears := by
  intro tag f l s t hready hlane hexec
  obtain ⟨r, st, hl, hst, hc⟩ := resetLane_some hlane
  have hreq := setPortRequest_changes (s := huntAgain .office s) hl hst hc
  have hvacated := changeStanding_vacated l f r st (huntAgain .office s)
  dsimp only at hreq
  rw [setPort_concluded f hready, hlane, hreq] at hexec
  obtain rfl : _ = t := Host.Outcome.next.inj hexec
  exact hvacated.concluded tag .setPort (some l) _ _

end Sys2Proof.Machine
end

section
/-! SUPPORT. Standings: who holds the token, what each port may be, and which port and station name one another (R87, R110, R167);
what each operation leaves of them. -/

namespace Sys2Proof.Machine

/-! ### The standings of a state -/

/-- What the port table's invariant reads of a state (R110, R167). -/
structure Standings where
  token : Port
  role : Lane → Role
  supervisor : Lane → Bool
  bound : Lane → Option StationNo
  port : StationNo → Option Lane

def State.standings (s : State) : Standings where
  token := s.token
  role l := (s.port l).role
  supervisor l := (s.port l).supervisor
  bound l := (s.port l).bound
  port st := (s.station st).port

/-- The invariant of the port table, said of the standings alone. -/
structure Standings.Sound (w : Standings) : Prop where
  holder : ∀ l, w.token = .lane l → w.role l = .till ∧ w.supervisor l = true
  capable : ∀ l, w.supervisor l = true → w.role l = .till
  station : ∀ l, (w.bound l).isSome = true → w.role l = .station
  partners : ∀ l st, w.bound l = some st ↔ w.port st = some l

theorem portTableHolds_iff (s : State) : PortTableHolds s ↔ s.standings.Sound :=
  ⟨fun ⟨ht, hs, hb, hp⟩ => ⟨ht, hs, hb, hp⟩, fun h => ⟨h.holder, h.capable, h.station, h.partners⟩⟩

/-- A port entry with the same role, flag of supervisor and bound station. -/
def PortEntry.SameStanding (e e' : PortEntry) : Prop := e'.role = e.role ∧ e'.supervisor = e.supervisor ∧ e'.bound = e.bound

theorem standings_congr {s t : State} (ht : t.token = s.token) (hp : ∀ l, (s.port l).SameStanding (t.port l))
    (hst : ∀ st, (t.station st).port = (s.station st).port) : t.standings = s.standings := by
  have hrole (l : Lane) := (hp l).1
  have hsup (l : Lane) := (hp l).2.1
  have hbound (l : Lane) := (hp l).2.2
  simp only [State.standings, ht, hrole, hsup, hbound, hst]

theorem standings_setPort_same {s : State} {l : Lane} {e : PortEntry} (h : (s.port l).SameStanding e) :
    (s.setPort l e).standings = s.standings := by
  refine standings_congr rfl (fun m => ?_) fun _ => rfl
  rw [State.setPort_port]
  split
  · subst_vars; exact h
  · exact ⟨rfl, rfl, rfl⟩

theorem standings_setStation_same {s : State} {st : StationNo} {x : Station} (h : x.port = (s.station st).port) :
    (s.setStation st x).standings = s.standings := by
  refine standings_congr rfl (fun _ => ⟨rfl, rfl, rfl⟩) fun st' => ?_
  rw [State.setStation_station]
  split
  · subst_vars; exact h
  · rfl

/-! ### The shared operations -/

@[simp] theorem setTab_standings (s : State) (i : Slot) (u : Tab) : (s.setTab i u).standings = s.standings := rfl

@[simp] theorem modifyTab_standings (s : State) (i : Slot) (f : Tab → Tab) : (s.modifyTab i f).standings = s.standings := rfl

@[simp] theorem setItem_standings (s : State) (m : ItemNo) (it : Item) : (s.setItem m it).standings = s.standings := rfl

@[simp] theorem setShare_standings (s : State) (j : ShareNo) (x : ShareRecord) : (s.setShare j x).standings = s.standings := rfl

@[simp] theorem answer_standings (s : State) (status : Status) (body : List Field) :
    (answer s status body).1.standings = s.standings := rfl

@[simp] theorem raised_standings (r : Raised) (s : State) : (s.raised r).standings = s.standings :=
  standings_congr rfl (fun l => by rw [raised_port]; exact ⟨rfl, rfl, rfl⟩) fun _ => rfl

@[simp] theorem touch_standings (i : Slot) (s : State) : (touch i s).standings = s.standings := by simp [touch_eq]

@[simp] theorem raiseLanes_standings (k : EventKind) (ls : List Lane) (s : State) :
    (raiseLanes k ls s).standings = s.standings := by simp [raiseLanes_eq]

@[simp] theorem raiseOptional_standings (k : EventKind) (l : Option Lane) (s : State) :
    (raiseOptional k l s).standings = s.standings := by simp [raiseOptional_eq]

@[simp] theorem raisePort_standings (k : EventKind) (p : Port) (s : State) : (raisePort k p s).standings = s.standings := by
  simp [raisePort_eq]

@[simp] theorem announceQueue_standings (s : State) : (announceQueue s).standings = s.standings := by simp [announceQueue_eq]

@[simp] theorem updateItem_standings (m : ItemNo) (it : Item) (s : State) : (updateItem m it s).standings = s.standings := by
  simp [updateItem_eq]

@[simp] theorem recomputeRail_standings (st : StationNo) (s : State) : (recomputeRail st s).standings = s.standings := by
  rw [recomputeRail_eq, raised_standings]
  exact standings_setStation_same rfl

@[simp] theorem recomputeRails_standings (sts : List StationNo) (s : State) : (recomputeRails sts s).standings = s.standings := by
  induction sts generalizing s with
  | nil => rfl
  | cons st sts ih => exact (ih _).trans (recomputeRail_standings st s)

@[simp] theorem closeEntries_standings (v : Verdict) (es : List Entry) (s : State) :
    (es.foldl (closeEntry v) s).standings = s.standings := by
  induction es generalizing s with
  | nil => rfl
  | cons e es ih =>
    rw [List.foldl_cons, ih, closeEntry_eq, raised_standings]
    rfl

@[simp] theorem endStale_standings (tab : Nat) (which : Ask → Bool) (s : State) :
    (endStale tab which s).standings = s.standings :=
  closeEntries_standings _ _ s

theorem modifyStation_standings {s : State} {st : StationNo} {f : Station → Station} (h : ∀ x, (f x).port = x.port) :
    (s.modifyStation st f).standings = s.standings := standings_setStation_same (h _)

/-! ### The port interface around a request (R167, R173 to R180) -/

@[simp] theorem huntAgain_standings (p : Port) (s : State) : (huntAgain p s).standings = s.standings := by
  cases p with
  | office => rfl
  | lane l => exact standings_setPort_same ⟨rfl, rfl, rfl⟩

@[simp] theorem composeNotices_standings (fresh : Option Lane) (before s : State) :
    (composeNotices fresh before s).standings = s.standings :=
  standings_congr rfl (fun l => by
    have h : (composeNotices fresh before s).port l = withNotice (fresh = some l) (before.port l) (s.port l) := tableOf_get _ l
    rw [h, withNotice_eq]
    exact ⟨rfl, rfl, rfl⟩) fun _ => rfl

@[simp] theorem sendReply_standings (p : Port) (tag code : Nat) (r : Reply) (s : State) :
    (sendReply p tag code r s).standings = s.standings := by
  cases p with
  | office => rfl
  | lane l => exact standings_setPort_same ⟨rfl, rfl, rfl⟩

@[simp] theorem dropFrame_standings (p : Port) (s : State) : (dropFrame p s).standings = s.standings := by simp [dropFrame]

@[simp] theorem deliver_standings (p : Port) (tag code : Nat) (a : Answer) : (deliver p tag code a).standings = a.1.standings := by
  unfold deliver
  split <;> simp

@[simp] theorem clockReply_standings (n : Nat) (s : State) : (clockReply n s).standings = s.standings := by
  unfold clockReply
  split
  · rfl
  split <;> rfl

@[simp] theorem clockFrame_standings (p : Port) (n : Nat) (s : State) : (clockFrame p n s).standings = s.standings := by
  unfold clockFrame
  split <;> simp

/-- A received frame whose examination keeps the standings. -/
theorem receive_standings {p : Port} {n : Nat} {s : State} {examine : State → State}
    (h : ∀ u, (examine u).standings = u.standings) : (receive p n s examine).standings = s.standings := by
  unfold receive
  split
  · rfl
  dsimp only
  split <;> simp [h]

/-- A received request: the standings are as they were, or as its block left them. -/
theorem receive_handle_standings {α : Type} (k : Kind) (p : Port) (n tag : Nat) (body : Body α)
    (fresh : α → State → Option Lane) (block : α → State → Answer) (s : State) :
    (let t := receive p n s (handle k p tag body fresh block)
     t.standings = s.standings ∨ ∃ f u, u.standings = s.standings ∧ t.standings = (block f u).1.standings) := by
  unfold receive
  split
  · exact .inl rfl
  dsimp only
  split
  · exact .inl (by simp)
  unfold handle
  split
  · exact .inl (by simp)
  split
  · exact .inl (by simp)
  split
  · exact .inl (by simp)
  split
  · exact .inr ⟨_, huntAgain p (clockFrame p n s), by simp, (composeNotices_standings _ _ _).trans (deliver_standings _ _ _ _)⟩
  · exact .inl (by simp)

end Sys2Proof.Machine
end

section
/-! SUPPORT. What each request's block leaves of the standings, in the order of the model's files (R87, R110, R167). -/

namespace Sys2Proof.Machine

/-- A request that names a tab keeps the standings where its continuation does (R24, R161). -/
theorem withTab_standings {p : Port} {n : Nat} {s : State} {k : Slot → State → Answer} {missing : List Field}
    (h : ∀ i u, (k i u).1.standings = u.standings) : (withTab p n s k missing).1.standings = s.standings := by
  rw [withTab_eq]
  split
  · rfl
  · exact h _ _

/-! ### Approvals (R110 to R130) -/

@[simp] theorem queueEntry_standings (l : Lane) (i : Slot) (ask : Ask) (reason : Nat) (s : State) :
    (queueEntry l i ask reason s).standings = s.standings := by
  unfold queueEntry
  dsimp only
  rw [raisePort_standings]
  split
  · rw [touch_standings]; rfl
  · rfl

theorem supervise_standings {l : Lane} {i : Slot} {ask : Ask} {reason : Nat} {s : State} {applied full : Answer}
    {queuedBody : Nat → List Field} (ha : applied.1.standings = s.standings) (hf : full.1.standings = s.standings) :
    (supervise l i ask reason s applied full queuedBody).1.standings = s.standings := by
  rcases supervise_cases l i ask reason s applied full queuedBody with ⟨-, h⟩ | ⟨-, -, h⟩ | ⟨-, -, h⟩ <;> rw [h]
  · exact ha
  · exact hf
  · exact queueEntry_standings l i ask reason s

@[simp] theorem decideEntry_standings (v : Verdict) (e : Entry) (s : State) : (decideEntry v e s).standings = s.standings := by
  refine (closeEntries_standings v [e] _).trans ?_
  unfold clearPending
  split <;> simp

@[simp] theorem applyVoidFired_standings (i : Slot) (n : Nat) (s : State) : (applyVoidFired i n s).standings = s.standings := by
  unfold applyVoidFired
  split
  · rfl
  split
  · rfl
  rename_i st _ tk _
  have h : (s.modifyStation st (Station.removeLine tk.number n)).standings = s.standings := modifyStation_standings fun _ => rfl
  dsimp only
  split <;> simp [h]

@[simp] theorem applyComp_standings (i : Slot) (n : Nat) (s : State) : (applyComp i n s).standings = s.standings := by
  unfold applyComp
  split
  · split <;> simp
  · rfl

@[simp] theorem applyPrice_standings (i : Slot) (n price : Nat) (s : State) : (applyPrice i n price s).standings = s.standings := by
  unfold applyPrice
  split <;> simp

@[simp] theorem applyPinClear_standings (i : Slot) (s : State) : (applyPinClear i s).standings = s.standings := by
  simp [applyPinClear]

@[simp] theorem applyUndo_standings (i : Slot) (k : Nat) (s : State) : (applyUndo i k s).standings = s.standings := by
  unfold applyUndo
  split <;> simp

@[simp] theorem applyAsk_standings (i : Slot) (ask : Ask) (s : State) : (applyAsk i ask s).standings = s.standings := by
  cases ask <;> simp [applyAsk]

theorem approve_standings (p : Port) (n : Nat) (s : State) : (approve p n s).1.standings = s.standings := by
  unfold approve
  iterate 2 (split; · rfl)
  unfold approveEntry
  split
  · split <;> simp
  · simp

theorem deny_standings (p : Port) (n : Nat) (s : State) : (deny p n s).1.standings = s.standings := by
  unfold deny
  iterate 2 (split; · rfl)
  simp

theorem withdraw_standings (l : Lane) (n : Nat) (s : State) : (withdraw l n s).1.standings = s.standings := by
  unfold withdraw
  iterate 2 (split; · rfl)
  simp

theorem approvalList_standings (p : Port) (start : Nat) (s : State) : (approvalList p start s).1.standings = s.standings := by
  unfold approvalList
  iterate 2 (split; · rfl)
  rfl

/-! ### The catalogue (R3 to R10, R18) -/

theorem loadItem_standings (f : LoadItemFields) (s : State) : (loadItem f s).1.standings = s.standings := by
  unfold loadItem
  split
  · split <;> simp
  · rfl

theorem withdrawItem_standings (n : Nat) (s : State) : (withdrawItem n s).1.standings = s.standings := by
  unfold withdrawItem
  split
  · rfl
  split <;> simp

theorem setCount_standings (p : Port) (f : SetCountFields) (s : State) : (setCount p f s).1.standings = s.standings := by
  unfold setCount
  split
  · rfl
  dsimp only
  split
  · rfl
  split <;> simp

theorem loadModifier_standings (f : LoadModifierFields) (s : State) : (loadModifier f s).1.standings = s.standings := by
  unfold loadModifier
  iterate 2 (split; · rfl)
  rfl

theorem setTaxRate_standings (f : SetTaxRateFields) (s : State) : (setTaxRate f s).1.standings = s.standings := by
  unfold setTaxRate
  iterate 2 (split; · rfl)
  rfl

theorem setGroupPriority_standings (f : SetGroupPriorityFields) (s : State) : (setGroupPriority f s).1.standings = s.standings := by
  unfold setGroupPriority
  split
  · rw [answer_standings, recomputeRails_standings]
    rfl
  · rfl

theorem availability_standings (first : Nat) (s : State) : (availability first s).1.standings = s.standings := by
  unfold availability
  split <;> rfl

/-! ### FIRE (R68 to R77) -/

theorem fireLine_standings (i : Slot) (number : Nat) (s : State) (n : Nat) : (fireLine i number s n).standings = s.standings := by
  unfold fireLine
  split
  · rfl
  split <;> rfl

theorem fireLines_standings (i : Slot) (number : Nat) (ns : List Nat) (s : State) :
    (ns.foldl (fireLine i number) s).standings = s.standings := by
  induction ns generalizing s with
  | nil => rfl
  | cons n ns ih => exact (ih _).trans (fireLine_standings i number s n)

theorem createTicket_standings (i : Slot) (s : State) (d : Draft) : (createTicket i s d).standings = s.standings := by
  unfold createTicket
  dsimp only
  rw [fireLines_standings, modifyTab_standings, modifyStation_standings]
  · rfl
  · exact fun _ => rfl

theorem createTickets_standings (i : Slot) (ds : List Draft) (s : State) : (createTickets i ds s).1.standings = s.standings := by
  induction ds generalizing s with
  | nil => rfl
  | cons d ds ih => exact (ih _).trans (createTicket_standings i s d)

theorem fire_standings (l : Lane) (f : FireFields) (s : State) : (fire l f s).1.standings = s.standings :=
  withTab_standings fun i u => by
    dsimp only
    iterate 7 (split; · rfl)
    simp [fireDrafts, createTickets_standings]

/-! ### Tabs (R25 to R47) -/

theorem openTab_standings (l : Lane) (f : OpenTabFields) (s : State) : (openTab l f s).1.standings = s.standings := by
  unfold openTab
  iterate 2 (split; · rfl)
  rfl

theorem tabView_standings (p : Port) (f : TabPageFields) (s : State) : (tabView p f s).1.standings = s.standings :=
  withTab_standings fun i u => by split <;> rfl

theorem addLine_standings (l : Lane) (f : AddLineFields) (s : State) : (addLine l f s).1.standings = s.standings :=
  withTab_standings fun i u => by
    dsimp only
    iterate 8 (split; · rfl)
    simp [enterLine]

theorem pullBack_standings (i : Slot) (n : Nat) (x : Line) (st : StationNo) (tk : Ticket) (s : State) :
    (pullBack i n x st tk s).standings = s.standings := by
  have h : (s.modifyStation st (Station.removeLine tk.number n)).standings = s.standings := modifyStation_standings fun _ => rfl
  unfold pullBack
  dsimp only
  split <;> simp [h]

theorem voidLine_standings (l : Lane) (f : VoidLineFields) (s : State) : (voidLine l f s).1.standings = s.standings :=
  withTab_standings fun i u => by
    dsimp only
    iterate 4 (split; · rfl)
    split
    · rfl
    · rfl
    · simp [strikeEntered]
    · split
      · exact pullBack_standings _ _ _ _ _ _
      · exact supervise_standings (applyVoidFired_standings _ _ _) rfl
      · rfl

theorem withOpenLine_standings {l : Lane} {i : Slot} {n : Nat} {ok : Bool} {s : State} {k : Line → Answer}
    (h : ∀ x, (k x).1.standings = s.standings) : (withOpenLine l i n ok s k).1.standings = s.standings := by
  unfold withOpenLine
  dsimp only
  iterate 6 (split; · rfl)
  exact h _

theorem compLine_standings (l : Lane) (f : CompLineFields) (s : State) : (compLine l f s).1.standings = s.standings :=
  withTab_standings fun i u => withOpenLine_standings fun x => by
    split
    · rfl
    · exact supervise_standings (applyComp_standings _ _ _) rfl

theorem overridePrice_standings (l : Lane) (f : OverridePriceFields) (s : State) :
    (overridePrice l f s).1.standings = s.standings :=
  withTab_standings fun i u => withOpenLine_standings fun x => by
    dsimp only
    split
    · rfl
    · exact supervise_standings (applyPrice_standings _ _ _ _) rfl

theorem follow_standings (l : Lane) (n : Nat) (s : State) : (follow l n s).1.standings = s.standings :=
  withTab_standings fun i u => by
    dsimp only
    iterate 2 (split; · rfl)
    rfl

theorem unfollow_standings (l : Lane) (n : Nat) (s : State) : (unfollow l n s).1.standings = s.standings :=
  withTab_standings fun _ _ => rfl

theorem setService_standings (p : Port) (f : SetServiceFields) (s : State) : (setService p f s).1.standings = s.standings :=
  withTab_standings fun i u => by
    dsimp only
    iterate 4 (split; · rfl)
    simp

/-! ### Protection (R52 to R57) -/

theorem unlock_standings (l : Lane) (f : TabPinFields) (s : State) : (unlock l f s).1.standings = s.standings :=
  withTab_standings fun i u => by
    dsimp only
    iterate 5 (split; · rfl)
    split <;> simp

theorem lock_standings (l : Lane) (n : Nat) (s : State) : (lock l n s).1.standings = s.standings :=
  withTab_standings fun i u => by
    dsimp only
    split <;> rfl

theorem setPin_standings (l : Lane) (f : TabPinFields) (s : State) : (setPin l f s).1.standings = s.standings :=
  withTab_standings fun i u => by
    dsimp only
    iterate 4 (split; · rfl)
    simp

theorem clearLockout_standings (l : Lane) (f : ClearLockoutFields) (s : State) : (clearLockout l f s).1.standings = s.standings :=
  withTab_standings fun i u => by
    dsimp only
    iterate 3 (split; · rfl)
    exact supervise_standings (applyPinClear_standings _ _) rfl

/-! ### The split engine and settlement (R132 to R166) -/

@[simp] theorem releaseSplit_standings (i : Slot) (s : State) : (releaseSplit i s).standings = s.standings := by
  simp only [releaseSplit, touch_standings, endStale_standings, modifyTab_standings]
  rfl

theorem freeTab_standings (i : Slot) (s : State) : (freeTab i s).standings = s.standings := by
  have h (n : Nat) (u : State) : (forgetDone n u).standings = u.standings :=
    standings_congr rfl (fun _ => ⟨rfl, rfl, rfl⟩) fun st => (congrArg Station.port (tableOf_get _ st)).trans rfl
  simp [freeTab, h]

@[simp] theorem loseOwner_standings (i : Slot) (s : State) : (loseOwner i s).standings = s.standings := by
  unfold loseOwner
  dsimp only
  split <;> simp

@[simp] theorem closeTab_standings (i : Slot) (s : State) : (closeTab i s).standings = s.standings := by
  simp only [closeTab, touch_standings]
  rfl

theorem takeUp_standings (s : State) : (takeUp s).standings = s.standings := by
  unfold takeUp
  split <;> rfl

theorem handToEngine_standings (job : SplitJob) (s : State) : (handToEngine job s).standings = s.standings := by
  unfold handToEngine
  split <;> rfl

theorem acceptSplit_standings (l : Lane) (tag : Nat) (i : Slot) (d : ShareDef) (n : Nat) (s : State) :
    (acceptSplit l tag i d n s).standings = s.standings := by
  unfold acceptSplit
  dsimp only
  rw [touch_standings, standings_setPort_same, handToEngine_standings, takeUp_standings]
  · rfl
  · exact ⟨rfl, rfl, rfl⟩

theorem split_standings (tag : Nat) (l : Lane) (f : SplitFields) (s : State) : (split tag l f s).1.standings = s.standings :=
  withTab_standings fun i u => by
    dsimp only
    iterate 7 (split; · rfl)
    exact acceptSplit_standings _ _ _ _ _ _

@[simp] theorem answerSplit_standings (l : Lane) (r : Reply) (s : State) : (answerSplit l r s).standings = s.standings := by
  unfold answerSplit
  split
  · rw [sendReply_standings, standings_setPort_same]
    exact ⟨rfl, rfl, rfl⟩
  · rfl

theorem complete_standings (s : State) : (complete s).standings = s.standings := by
  unfold complete
  iterate 2 (split; · rfl)
  rename_i c _ _ i _
  have hhand : (handOver i c s).standings = s.standings := rfl
  dsimp only
  split
  · unfold settle
    dsimp only
    split <;> simp [hhand]
  · simp [hhand]

theorem shareView_standings (p : Port) (f : TabPageFields) (s : State) : (shareView p f s).1.standings = s.standings :=
  withTab_standings fun i u => by
    dsimp only
    iterate 2 (split; · rfl)
    rfl

theorem withOwnSplit_standings {l : Lane} {i : Slot} {s : State} {k : SplitRef → Answer}
    (h : ∀ r, (k r).1.standings = s.standings) : (withOwnSplit l i s k).1.standings = s.standings := by
  unfold withOwnSplit
  dsimp only
  iterate 4 (split; · rfl)
  exact h _

theorem takeTender_standings (i : Slot) (j : ShareNo) (index : Nat) (sh : Share) (d : Tender) (s : State) :
    (takeTender i j index sh d s).1.standings = s.standings := by
  unfold takeTender
  dsimp only
  rw [answer_standings]
  split <;> simp

theorem tender_standings (l : Lane) (f : TenderFields) (s : State) : (tender l f s).1.standings = s.standings :=
  withTab_standings fun i u => withOwnSplit_standings fun _ => by
    split
    · iterate 2 (split; · rfl)
      dsimp only
      split
      · rfl
      split
      · rfl
      · rfl
      · exact takeTender_standings _ _ _ _ _ _
    · rfl

theorem undoTender_standings (l : Lane) (f : UndoTenderFields) (s : State) : (undoTender l f s).1.standings = s.standings :=
  withTab_standings fun i u => withOwnSplit_standings fun _ => by
    iterate 4 (split; · rfl)
    exact supervise_standings (applyUndo_standings _ _ _) rfl

theorem dropSplit_standings (l : Lane) (n : Nat) (s : State) : (dropSplit l n s).1.standings = s.standings :=
  withTab_standings fun i u => withOwnSplit_standings fun _ => by
    split <;> simp

theorem lapseClaim_standings (n : Nat) (s : State) : (lapseClaim n s).standings = s.standings := by
  unfold lapseClaim
  split
  · rfl
  split <;> simp

theorem adopt_standings (l : Lane) (n : Nat) (s : State) : (adopt l n s).1.standings = s.standings :=
  withTab_standings fun i u => by
    dsimp only
    iterate 3 (split; · rfl)
    split
    · split <;> rfl
    · simp

theorem exportTab_standings (i : Slot) (s : State) : (exportTab i s).standings = s.standings := by
  unfold exportTab
  dsimp only
  split
  · exact freeTab_standings i _
  · rw [touch_standings]
    rfl

theorem takeClosed_standings (f : Unit) (s : State) : (takeClosed f s).1.standings = s.standings := by
  unfold takeClosed
  split
  · rfl
  dsimp only
  split
  · rfl
  · exact exportTab_standings _ _

/-! ### Stations (R93 to R107) -/

/-- A station that keeps its bound port, with its rail recomputed. -/
theorem modifyStation_rail_standings {st : StationNo} {f : Station → Station} {s : State} (h : ∀ x, (f x).port = x.port) :
    (recomputeRail st (s.modifyStation st f)).standings = s.standings :=
  (recomputeRail_standings st _).trans (modifyStation_standings h)

theorem take_standings (st : StationNo) (f : Unit) (s : State) : (take st f s).1.standings = s.standings := by
  unfold take
  iterate 2 (split; · rfl)
  exact modifyStation_rail_standings fun _ => rfl

theorem serveTab_standings (i : Slot) (tk : Ticket) (s : State) : (serveTab i tk s).standings = s.standings := by
  unfold serveTab
  dsimp only
  split
  · rw [freeTab_standings, touch_standings, modifyTab_standings]
  · simp

theorem bump_standings (st : StationNo) (f : Unit) (s : State) : (bump st f s).1.standings = s.standings := by
  unfold bump
  split
  · rfl
  rename_i tk _
  have h : (s.modifyStation st (Station.bumpTicket tk)).standings = s.standings := modifyStation_standings fun _ => rfl
  dsimp only
  rw [answer_standings]
  split
  · exact (serveTab_standings _ _ _).trans h
  · exact h

theorem resume_standings (st : StationNo) (f : Unit) (s : State) : (resume st f s).1.standings = s.standings := by
  unfold resume
  split
  · exact modifyStation_standings fun _ => rfl
  · rfl

theorem recallTicket_standings (st : StationNo) (n : Nat) (s : State) : (recallTicket st n s).1.standings = s.standings := by
  unfold recallTicket
  iterate 2 (split; · rfl)
  rename_i tk _
  have h : (s.modifyStation st (Station.recallTicket tk)).standings = s.standings := modifyStation_standings fun _ => rfl
  iterate 2 (split; · rfl)
  dsimp only
  rw [answer_standings]
  split
  · rw [unserveTab, touch_standings, modifyTab_standings, h]
  · exact h

theorem holdLow_standings (st : StationNo) (code : Nat) (s : State) : (holdLow st code s).1.standings = s.standings := by
  unfold holdLow
  split
  · rfl
  · exact modifyStation_rail_standings fun _ => rfl

theorem setWorking_standings (asked : StationState) (st : StationNo) (s : State) :
    (setWorking asked st s).1.standings = s.standings := by
  unfold setWorking
  iterate 2 (split; · rfl)
  exact modifyStation_rail_standings fun _ => rfl

theorem pauseOrOpen_standings (asked : StationState) (p : Port) (f : Option Nat) (s : State) :
    (pauseOrOpen asked p f s).1.standings = s.standings := by
  unfold pauseOrOpen
  split
  · split
    · exact setWorking_standings asked _ s
    · rfl
  · split
    · exact setWorking_standings asked _ s
    · rfl

theorem stationView_standings (st : StationNo) (start : Nat) (s : State) : (stationView st start s).1.standings = s.standings := by
  unfold stationView
  split <;> rfl

theorem reconfigure_standings (st : StationNo) (state : StationState) (a : Option StationNo) (threshold : Nat) (status : Status)
    (s : State) : (reconfigure st state a threshold status s).1.standings = s.standings :=
  modifyStation_rail_standings fun _ => rfl

theorem moveQueue_standings (st a : StationNo) (s : State) : (moveQueue st a s).standings = s.standings := by
  unfold moveQueue
  dsimp only
  rw [modifyStation_standings, modifyStation_standings] <;> exact fun _ => rfl

theorem closeStation_standings (st : StationNo) (a : Option StationNo) (threshold : Nat) (status : Status) (s : State) :
    (closeStation st a threshold status s).1.standings = s.standings := by
  unfold closeStation
  dsimp only
  split
  · rfl
  split
  · exact reconfigure_standings st _ a threshold status s
  iterate 3 (split; · rfl)
  rw [answer_standings, recomputeRails_standings, moveQueue_standings]
  exact modifyStation_standings fun _ => rfl

theorem setStation_standings (f : SetStationFields) (s : State) : (setStation f s).1.standings = s.standings := by
  unfold setStation
  split
  · split
    · rfl
    dsimp only
    split
    · exact closeStation_standings _ _ _ _ s
    · exact reconfigure_standings _ _ _ _ _ s
  · rfl

theorem expireLate_standings (n : Nat) (s : State) : (expireLate n s).standings = s.standings := by
  unfold expireLate
  split
  · rfl
  dsimp only
  split
  · rw [raiseLanes_standings, raiseOptional_standings]
    exact modifyStation_standings fun _ => rfl
  · rfl

/-! ### Events, masks and the tick (R173, R182 to R184) -/

theorem events_standings (p : Port) (f : Unit) (s : State) : (events p f s).1.standings = s.standings := by
  cases p with
  | office => rfl
  | lane l => exact standings_setPort_same ⟨rfl, rfl, rfl⟩

theorem setMask_standings (p : Port) (mask : Nat) (s : State) : (setMask p mask s).1.standings = s.standings := by
  cases p with
  | office => rfl
  | lane l => exact standings_setPort_same ⟨rfl, rfl, rfl⟩

theorem tick_standings (s : State) : (tick s).standings = s.standings := by
  have hport (l : Lane) : (tick s).port l = { s.port l with receiver := (s.port l).receiver.tick } := tableOf_get _ l
  have hst (st : StationNo) : (tick s).station st = (s.station st).mapLive fun t => { t with late := countDown t.late } :=
    tableOf_get _ st
  exact standings_congr rfl (fun l => by rw [hport]; exact ⟨rfl, rfl, rfl⟩) fun st => by rw [hst]; rfl

end Sys2Proof.Machine
end

section
/-! SUPPORT. The requests that move the token or change a port's standing, and what every command leaves of the port table (R87,
R88, R110 to R113, R167 to R171). -/

namespace Sys2Proof.Machine

/-! ### Standings that change -/

/-- A lane with another role and flag of supervisor. -/
def Standings.flagged (l : Lane) (r : Role) (sup : Bool) (w : Standings) : Standings :=
  { w with
    role := fun m => if m = l then r else w.role m
    supervisor := fun m => if m = l then sup else w.supervisor m }

/-- A station and a lane bound to one another (R88). -/
def Standings.paired (l : Lane) (st : StationNo) (w : Standings) : Standings :=
  { w with
    bound := fun m => if m = l then some st else w.bound m
    port := fun x => if x = st then some l else w.port x }

/-- A lane that has been through a port reset: it is bound to no station, and the token it held is with the office (R170). -/
def Standings.vacated (l : Lane) (w : Standings) : Standings :=
  { w with
    token := if w.token = .lane l then .office else w.token
    bound := fun m => if m = l then none else w.bound m
    port := fun st => if w.port st = some l then none else w.port st }

theorem Standings.Sound.toOffice {w : Standings} (h : w.Sound) : Standings.Sound { w with token := .office } :=
  ⟨nofun, h.capable, h.station, h.partners⟩

theorem Standings.Sound.toLane {w : Standings} (h : w.Sound) {l : Lane} (hr : w.role l = .till) (hs : w.supervisor l = true) :
    Standings.Sound { w with token := .lane l } := by
  refine ⟨fun m hm => ?_, h.capable, h.station, h.partners⟩
  obtain rfl : l = m := Port.lane.inj hm
  exact ⟨hr, hs⟩

theorem Standings.Sound.flagged {w : Standings} (h : w.Sound) {l : Lane} {r : Role} {sup : Bool} (hs : sup = true → r = .till)
    (hb : (w.bound l).isSome = true → r = .station) (ht : w.token = .lane l → sup = true) : (w.flagged l r sup).Sound := by
  refine ⟨fun m hm => ?_, fun m => ?_, fun m => ?_, h.partners⟩
  all_goals
    unfold Standings.flagged
    dsimp only
    split
  · subst_vars; exact ⟨hs (ht hm), ht hm⟩
  · exact h.holder m hm
  · exact hs
  · exact h.capable m
  · subst_vars; exact hb
  · exact h.station m

theorem Standings.Sound.paired {w : Standings} (h : w.Sound) {l : Lane} {st : StationNo} (hr : w.role l = .station)
    (hl : w.bound l = none) (hst : w.port st = none) : (w.paired l st).Sound := by
  have hlone (x : StationNo) : ¬w.port x = some l := by rw [← h.partners, hl]; nofun
  have hfree (m : Lane) : ¬w.bound m = some st := by rw [h.partners, hst]; nofun
  refine ⟨h.holder, h.capable, fun m hm => ?_, fun m x => ?_⟩
  · by_cases he : m = l
    · exact he ▸ hr
    · exact h.station m (by simpa [Standings.paired, he] using hm)
  · by_cases hm : m = l <;> by_cases hx : x = st
    · simp [Standings.paired, hm, hx]
    · simp [Standings.paired, hm, hx, hlone, Ne.symm hx]
    · simp [Standings.paired, hm, hx, hfree, Ne.symm hm]
    · simp [Standings.paired, hm, hx, h.partners]

theorem Standings.Sound.vacated {w : Standings} (h : w.Sound) (l : Lane) : (w.vacated l).Sound := by
  refine ⟨fun m hm => h.holder m ?_, h.capable, fun m hm => h.station m ?_, fun m st => ?_⟩
  · simp only [Standings.vacated] at hm
    split at hm
    · cases hm
    · exact hm
  · simp only [Standings.vacated] at hm
    split at hm
    · cases hm
    · exact hm
  · by_cases hm : m = l
    · by_cases hp : w.port st = some l <;> simp [Standings.vacated, hm, hp]
    · by_cases hp : w.port st = some l
      · simp [Standings.vacated, hm, hp, h.partners, Ne.symm hm]
      · simp [Standings.vacated, hm, hp, h.partners]

/-! ### The token (R111 to R113) -/

theorem returnToken_standings (s : State) : (returnToken s).standings = { s.standings with token := .office } := by
  rw [returnToken, announceQueue_standings, raiseOffice_eq, raised_standings]
  rfl

theorem mayHold_iff {e : PortEntry} : mayHold e = true ↔ e.role = .till ∧ e.supervisor = true := by
  simp [mayHold]

/-- PASS_SUPERVISOR gives the token to a till that may hold it (R111). -/
theorem passSupervisor_sound (p : Port) (n : Nat) {s : State} (h : s.standings.Sound) :
    (passSupervisor p n s).1.standings.Sound := by
  unfold passSupervisor
  iterate 2 (split; · exact h)
  rename_i l _
  split
  · exact h
  rename_i hmay
  split
  · exact h
  · obtain ⟨hrole, hsup⟩ := mayHold_iff.mp (by simpa using hmay)
    rw [answer_standings, announceQueue_standings, raisePort_standings, raisePort_standings]
    exact h.toLane hrole hsup

theorem reclaim_sound (f : Unit) {s : State} (h : s.standings.Sound) : (reclaim f s).1.standings.Sound := by
  unfold reclaim
  split
  · exact h
  · rw [answer_standings, announceQueue_standings, raiseLanes_standings]
    exact h.toOffice

/-! ### SET_PORT (R169 to R171) -/

theorem disownAll_standings (l : Lane) (is : List Slot) (s : State) : (is.foldl (disown l) s).standings = s.standings := by
  induction is generalizing s with
  | nil => rfl
  | cons i is ih =>
    rw [List.foldl_cons, ih]
    unfold disown
    split
    · split <;> simp
    · rfl

/-- A lane's entry replaced. -/
theorem standings_setPort (s : State) (l : Lane) (e : PortEntry) :
    (s.setPort l e).standings
      = { s.standings.flagged l e.role e.supervisor with bound := fun m => if m = l then e.bound else s.standings.bound m } := by
  simp only [State.standings, State.setPort_port, State.setPort_station, Standings.flagged, apply_ite PortEntry.role,
    apply_ite PortEntry.supervisor, apply_ite PortEntry.bound]
  rfl

theorem flagged_same (s : State) (l : Lane) : s.standings.flagged l (s.port l).role (s.port l).supervisor = s.standings := by
  have h {α : Type} (f : PortEntry → α) : (fun m => if m = l then f (s.port l) else f (s.port m)) = fun m => f (s.port m) := by
    funext m
    split
    · subst_vars; rfl
    · rfl
  simp only [Standings.flagged, State.standings, h]

/-- What a port reset leaves once the lane's tabs are given up (R170). -/
theorem resetPort_rest (l : Lane) {s v : State}
    (hv : v.standings = { s.standings with port := (s.standings.vacated l).port }) :
    (let w := if v.token = .lane l then returnToken v else v
     (State.setPort { w with results := w.results.set l [] } l (w.port l).cleared).standings = s.standings.vacated l) := by
  intro w
  have ht : v.token = s.standings.token := congrArg Standings.token hv
  have hw : w.standings
      = { s.standings with port := (s.standings.vacated l).port, token := (s.standings.vacated l).token } := by
    by_cases h : v.token = .lane l
    · simp only [w, if_pos h, returnToken_standings, hv, Standings.vacated, ← ht]
    · simp only [w, if_neg h, hv, Standings.vacated, ← ht]
  refine (standings_setPort _ l _).trans ?_
  have hsame : Standings.flagged l (w.port l).cleared.role (w.port l).cleared.supervisor w.standings = w.standings :=
    flagged_same w l
  change { Standings.flagged l _ _ w.standings with bound := fun m => if m = l then none else w.standings.bound m } = _
  rw [hsame, hw]
  rfl

theorem resetPort_standings (l : Lane) (s : State) : (resetPort l s).standings = s.standings.vacated l := by
  have hst : (fun st => ((leaveTabs l (unbind l s)).station st).port) = (s.standings.vacated l).port :=
    funext fun st => congrArg Station.port (tableOf_get _ st)
  have hv : (leaveTabs l (unbind l s)).standings = { s.standings with port := (s.standings.vacated l).port } := by
    rw [← hst]
    rfl
  replace hv := (disownAll_standings l (List.finRange 128) _).trans hv
  unfold resetPort
  dsimp only
  generalize (List.finRange 128).foldl (disown l) (leaveTabs l (unbind l s)) = v at hv ⊢
  exact resetPort_rest l hv

theorem applyFlags_standings (l : Lane) (f : SetPortFields) (r : Role) (s : State) :
    (applyFlags l f r s).standings = s.standings.flagged l r (f.supervisor && r = .till) := by
  refine (standings_setPort s l _).trans ?_
  have h : (fun m => if m = l then (s.port l).bound else s.standings.bound m) = s.standings.bound := by
    funext m
    split
    · subst_vars; rfl
    · rfl
  change { Standings.flagged l r _ s.standings with bound := fun m => if m = l then (s.port l).bound else s.standings.bound m } = _
  rw [h]
  rfl

theorem standings_setStation (s : State) (st : StationNo) (x : Station) :
    (s.setStation st x).standings
      = { s.standings with port := fun st' => if st' = st then x.port else s.standings.port st' } := by
  simp only [State.standings, State.setStation_station, State.setStation_port, apply_ite Station.port]
  rfl

theorem bindStation_standings (l : Lane) (st : StationNo) (s : State) :
    (bindStation l st s).standings = s.standings.paired l st := by
  let u := s.setStation st { s.station st with port := some l, rail := s.railOf st }
  have hu : u.standings = { s.standings with port := (s.standings.paired l st).port } := standings_setStation s st _
  have hsame : u.standings.flagged l (s.port l).role (s.port l).supervisor = u.standings := flagged_same u l
  rw [bindStation_eq, raised_standings, standings_setPort]
  change { u.standings.flagged l (s.port l).role (s.port l).supervisor with
    bound := fun m => if m = l then some st else u.standings.bound m } = _
  rw [hsame, hu]
  rfl

/-- The flag of supervisor is stored for tills alone (R169). -/
theorem storedFlag_till {b : Bool} {r : Role} (h : (b && decide (r = .till)) = true) : r = .till := by
  simp only [Bool.and_eq_true, decide_eq_true_eq] at h
  exact h.2

theorem standing?_station {f : SetPortFields} {r : Role} {st : StationNo} (h : standing? f = some (r, some st)) : r = .station := by
  unfold standing? at h
  split at h
  · cases h
  · cases h
  · simp only [Option.map_eq_some_iff, Prod.mk.injEq] at h
    obtain ⟨_, _, hr, _⟩ := h
    exact hr.symm
  · cases h

theorem changeStanding_sound {l : Lane} {f : SetPortFields} {r : Role} {st : Option StationNo} {s : State}
    (hst : standing? f = some (r, st)) (h : s.standings.Sound) : (changeStanding l f r st s).2.standings.Sound := by
  have hreset := resetPort_standings l s
  have hsound := h.vacated l
  have htoken : (s.standings.vacated l).token ≠ .lane l := by
    simp only [Standings.vacated]
    split
    · nofun
    · assumption
  have hbound : (s.standings.vacated l).bound l = none := if_pos rfl
  have hflagged := hsound.flagged (r := r) (sup := f.supervisor && r = .till) storedFlag_till (fun hb => by simp [hbound] at hb)
    fun ht => absurd ht htoken
  unfold changeStanding
  rw [← hreset] at hsound hflagged hbound
  generalize resetPort l s = u at hsound hflagged hbound ⊢
  rw [← applyFlags_standings] at hflagged
  dsimp only
  split
  · exact hflagged
  split
  · exact hsound
  · rename_i n hfree
    rw [bindStation_standings]
    refine hflagged.paired ?_ ?_ ?_
    · rw [applyFlags_standings]
      exact (if_pos rfl).trans (standing?_station hst)
    · rw [applyFlags_standings]
      exact hbound
    · exact Option.not_isSome_iff_eq_none.mp hfree

theorem keepStanding_sound {l : Lane} {f : SetPortFields} {r : Role} {s : State} (hr : r = (s.port l).role)
    (h : s.standings.Sound) : (keepStanding l f r s).standings.Sound := by
  have hb : (s.standings.bound l).isSome = true → r = .station := fun hb => hr.trans (h.station l hb)
  unfold keepStanding
  dsimp only
  split
  · rw [raiseLanes_standings, returnToken_standings, applyFlags_standings]
    exact h.toOffice.flagged (w := { s.standings with token := .office }) storedFlag_till hb nofun
  · rename_i hnot
    rw [applyFlags_standings]
    refine h.flagged storedFlag_till hb fun ht => ?_
    have hsup : ((applyFlags l f r s).port l).supervisor = (f.supervisor && r = .till) := by
      rw [applyFlags, State.setPort_port_self]
      rfl
    rw [hsup] at hnot
    simpa using fun e => hnot ⟨ht, e⟩

theorem setPortRequest_sound (f : SetPortFields) {s : State} (h : s.standings.Sound) : (setPortRequest f s).1.standings.Sound := by
  unfold setPortRequest
  split
  · split
    · exact changeStanding_sound ‹_› h
    · rename_i hkeeps
      refine keepStanding_sound ?_ h
      simp only [changesStanding, Bool.or_eq_true, decide_eq_true_eq, not_or, not_not] at hkeeps
      exact hkeeps.1
  · exact h

/-! ### Every command -/

/-- An outcome whose standings are sound where those before it were. -/
def EndsSound (s : State) (o : Host.Outcome State Fault Refusal) : Prop :=
  ∀ t, o = .next t → s.standings.Sound → t.standings.Sound

theorem endsSound_next {s t : State} (h : s.standings.Sound → t.standings.Sound) : EndsSound s (.next t) := fun _ e => by
  cases e
  exact h

theorem endsSound_same {s t : State} (h : t.standings = s.standings) : EndsSound s (.next t) :=
  endsSound_next fun hs => by rwa [h]

/-- A device reset leaves a sound port table (R186). -/
theorem endsSound_reset {s t : State} (h : t.standings = State.reset.standings) : EndsSound s (.next t) :=
  endsSound_next fun _ => h ▸ (portTableHolds_iff _).mp portTableHolds_reset

theorem receive_sound {α : Type} {k : Kind} {p : Port} {n tag : Nat} {body : Body α} {fresh : α → State → Option Lane}
    {block : α → State → Answer} {s : State} (h : ∀ f u, u.standings.Sound → (block f u).1.standings.Sound) :
    EndsSound s (.next (receive p n s (handle k p tag body fresh block))) :=
  endsSound_next fun hs => by
    rcases receive_handle_standings k p n tag body fresh block s with he | ⟨f, u, hu, he⟩
    · rwa [he]
    · rw [he]
      exact h f u (by rwa [hu])

theorem serve_sound {α : Type} {k : Kind} {c : Codec α} {p : Port} {tag : Nat} {body : Body α} {block : α → State → Answer}
    {s : State} (h : ∀ f u, u.standings.Sound → (block f u).1.standings.Sound) : EndsSound s (serve k c p tag body block s) :=
  receive_sound h

/-- A request whose block changes no standing. -/
theorem serve_same {α : Type} {k : Kind} {c : Codec α} {p : Port} {tag : Nat} {body : Body α} {block : α → State → Answer}
    {s : State} (h : ∀ f u, (block f u).1.standings = u.standings) : EndsSound s (serve k c p tag body block s) :=
  serve_sound fun f u hu => by rwa [h]

theorem serveLane_same {α : Type} {k : Kind} {c : Codec α} {p : Port} {tag : Nat} {body : Body α}
    {block : Lane → α → State → Answer} {s : State} (h : ∀ l f u, (block l f u).1.standings = u.standings) :
    EndsSound s (serveLane k c p tag body block s) :=
  serve_same fun f u => by
    split
    · exact h _ f u
    · rfl

theorem serveStation_same {α : Type} {k : Kind} {c : Codec α} {p : Port} {tag : Nat} {body : Body α}
    {block : StationNo → α → State → Answer} {s : State} (h : ∀ st f u, (block st f u).1.standings = u.standings) :
    EndsSound s (serveStation k c p tag body block s) :=
  serveLane_same fun l f u => by
    split
    · exact h _ f u
    · rfl

/-- A step that the RESET pin holds back and that changes no standing. -/
theorem unheld_same {s t : State} (h : t.standings = s.standings) : EndsSound s (.next (if s.resetPin then s else t)) := by
  refine endsSound_same ?_
  split
  · rfl
  · exact h

theorem happen_same {effect : State → State} {s : State} (h : (effect s).standings = s.standings) :
    EndsSound s (happen effect s) :=
  unheld_same ((composeNotices_standings _ _ _).trans h)

theorem dropWhen_same (occurs : State → Bool) (p : Port) (n : Nat) (s : State) : EndsSound s (dropWhen occurs p n s) := by
  refine unheld_same ?_
  split <;> simp

theorem beginFrame_standings (b : StartByte) (s : State) : (beginFrame b s).standings = s.standings := by
  have h (p : Port) (r : Receiver) (u : State) : (u.setReceiver p r).standings = u.standings := by
    cases p with
    | office => rfl
    | lane l => exact standings_setPort_same ⟨rfl, rfl, rfl⟩
  unfold beginFrame
  split
  · rw [h, clockFrame_standings]
  · rfl

theorem drawn_standings (n : Nat) (s : State) :
    (dropFrame .office (clockReply n { s with draws := s.draws + 1 })).standings = s.standings := by
  rw [dropFrame_standings, clockReply_standings]
  rfl

theorem discardFrame_standings (s : State) : (discardFrame s).standings = s.standings := by
  unfold discardFrame
  split
  · rfl
  · exact drawn_standings _ s

theorem overrun_standings (s : State) : (overrun s).standings = s.standings := by
  unfold overrun
  split
  · rfl
  · exact drawn_standings _ s

theorem execUnknownKind_sound (p : Port) (tag : Nat) (k : KindAndBody) (s : State) : EndsSound s (execUnknownKind p tag k s) := by
  refine endsSound_same ?_
  split
  · exact receive_standings fun u => sendReply_standings _ _ _ _ u
  · rfl

/-- No command breaks the port table (R110, R167). -/
theorem exec_sound (c : Instr) (s : State) : EndsSound s (exec c s) := by
  cases c with
  | powerOn => exact endsSound_reset rfl
  | resetPin => exact endsSound_reset rfl
  | resetPinAsserted => exact endsSound_reset rfl
  | reset p tag body => exact serve_sound fun _ _ _ => (portTableHolds_iff _).mp portTableHolds_reset
  | secondTick => exact unheld_same (tick_standings s)
  | lateExpiry n => exact happen_same (expireLate_standings n s)
  | claimLapse n => exact happen_same (lapseClaim_standings n s)
  | frameTimeout l => exact dropWhen_same _ _ _ s
  | lengthError p n => exact dropWhen_same (fun _ => !lengthOk n) p 2 s
  | crcMismatch p bytes crc => exact dropWhen_same (fun _ => countedBytes bytes && crc16 bytes ≠ crc) p _ s
  | csDeasserted => exact unheld_same (discardFrame_standings s)
  | badTagOrKind p tag k => exact dropWhen_same (fun _ => tag = 0 || 0x80 ≤ k.kind) p _ s
  | unknownKind p tag k => exact execUnknownKind_sound p tag k s
  | transmitListFull l => exact dropWhen_same _ _ _ s
  | officeRequestOverrun => exact unheld_same (overrun_standings s)
  | frameSent l => exact unheld_same (standings_setPort_same ⟨rfl, rfl, rfl⟩)
  | replyClockedOut => exact unheld_same rfl
  | startByteReceived b => exact unheld_same (beginFrame_standings b s)
  | openTab p tag body => exact serveLane_same openTab_standings
  | tabView p tag body => exact serve_same (tabView_standings p)
  | addLine p tag body => exact serveLane_same addLine_standings
  | voidLine p tag body => exact serveLane_same voidLine_standings
  | compLine p tag body => exact serveLane_same compLine_standings
  | overridePrice p tag body => exact serveLane_same overridePrice_standings
  | follow p tag body => exact serveLane_same follow_standings
  | unfollow p tag body => exact serveLane_same unfollow_standings
  | setService p tag body => exact serve_same (setService_standings p)
  | unlock p tag body => exact serveLane_same unlock_standings
  | lock p tag body => exact serveLane_same lock_standings
  | setPin p tag body => exact serveLane_same setPin_standings
  | clearLockout p tag body => exact serveLane_same clearLockout_standings
  | fire p tag body => exact serveLane_same fire_standings
  | rail p tag body => exact serveStation_same fun _ _ _ => rfl
  | take p tag body => exact serveStation_same take_standings
  | bump p tag body => exact serveStation_same bump_standings
  | resume p tag body => exact serveStation_same resume_standings
  | recallTicket p tag body => exact serveStation_same recallTicket_standings
  | holdLow p tag body => exact serveStation_same holdLow_standings
  | pause p tag body => exact serve_same (pauseOrOpen_standings .paused p)
  | openStation p tag body => exact serve_same (pauseOrOpen_standings .opened p)
  | stationView p tag body => exact serveStation_same stationView_standings
  | setStation p tag body => exact serve_same setStation_standings
  | passSupervisor p tag body => exact serve_sound fun n _ => passSupervisor_sound p n
  | reclaim p tag body => exact serve_sound fun f _ => reclaim_sound f
  | approvalList p tag body => exact serve_same (approvalList_standings p)
  | approve p tag body => exact serve_same (approve_standings p)
  | deny p tag body => exact serve_same (deny_standings p)
  | withdraw p tag body => exact serveLane_same withdraw_standings
  | results p tag body => exact serveLane_same fun _ _ _ => rfl
  | split p tag body => exact serveLane_same (split_standings tag)
  | splitBegin => exact happen_same (takeUp_standings s)
  | splitCompletion => exact happen_same (complete_standings s)
  | shareView p tag body => exact serve_same (shareView_standings p)
  | tender p tag body => exact serveLane_same tender_standings
  | undoTender p tag body => exact serveLane_same undoTender_standings
  | dropSplit p tag body => exact serveLane_same dropSplit_standings
  | adopt p tag body => exact serveLane_same adopt_standings
  | takeClosed p tag body => exact serve_same takeClosed_standings
  | loadItem p tag body => exact serve_same loadItem_standings
  | withdrawItem p tag body => exact serve_same withdrawItem_standings
  | loadModifier p tag body => exact serve_same loadModifier_standings
  | setTaxRate p tag body => exact serve_same setTaxRate_standings
  | setGroupPriority p tag body => exact serve_same setGroupPriority_standings
  | setCount p tag body => exact serve_same (setCount_standings p)
  | availability p tag body => exact serve_same availability_standings
  | setPort p tag body => exact receive_sound fun f _ => setPortRequest_sound f
  | events p tag body => exact serve_same (events_standings p)
  | setMask p tag body => exact serve_same (setMask_standings p)
  | setClock p tag body => exact serve_same fun _ _ => rfl
  | status p tag body => exact serve_same fun _ _ => rfl

/-- Settles O56: the standings that PASS_SUPERVISOR, RECLAIM and SET_PORT leave are sound, and no other command changes any. -/
theorem portTableIsKept : Obligations.PortTableIsKept :=
  kept_of_exec (fun _ _ => id) fun c s t hs ht => (portTableHolds_iff t).mpr (exec_sound c s t ht ((portTableHolds_iff s).mp hs))

end Sys2Proof.Machine
end

section
/-! SUPPORT. The settle owner's requests on its split: UNDO_TENDER (R117, R118, R125, R157) and DROP_SPLIT (R159, R160); and the
claim that lapses (R162). -/

namespace Sys2Proof.Machine

/-! ### A complete split asked for by its settle owner (R155, R157, R160) -/

@[simp] theorem Tab.named_shareRefs (p : Port) (t : Tab) : (t.named p).shareRefs = t.shareRefs := by simp [Tab.shareRefs]

theorem withOwnSplit_owner {l : Lane} {tag : Nat} {i : Slot} {r : SplitRef} {s : State} {k : SplitRef → Answer}
    (h : tillReady l tag s = true) (hpin : (s.tab i).pin = none ∨ l ∈ (s.tab i).unlocked) (hst : (s.tab i).state = .settling)
    (hsplit : (s.tab i).split = some r) (hx : r.totals ≠ none) (howner : (s.tab i).owner = some l) :
    withOwnSplit l i (s.naming l i) k = k r := by
  have hunlocked := (naming_unlocked h i).mpr hpin
  simp only [withOwnSplit, naming_tab, hunlocked, Tab.named_split, hsplit, Tab.named_state, hst, hx, Tab.named_owner, howner,
    Bool.not_true, Bool.false_eq_true, if_false, ne_eq, not_true_eq_false, or_self]

theorem sharesOf_named (p : Port) (s : State) (t : Tab) : s.sharesOf (t.named p) = s.sharesOf t := by
  simp [State.sharesOf]

theorem shareAt_named (p : Port) (s : State) (t : Tab) (k : Nat) : s.shareAt (t.named p) k = s.shareAt t k := by
  simp [State.shareAt]

/-! ### UNDO_TENDER (R117, R118, R125, R157) -/

/-- A share without the last of its tenders (R125). -/
theorem Share.undo_last {sh : Share} {ds : List Tender} {d : Tender} (h : sh.tenders = ds ++ [d]) :
    sh.undo = { sh with paid := sh.paid - d.applied, tenders := ds, state := .due } := by
  simp [Share.undo, h]

/-- The last tender of a share undone, with TAB_CHANGED to the tab's followers (R125). -/
theorem applyUndo_eq {i : Slot} {k : Nat} {j : ShareNo} {sh : Share} {s : State} (h : s.shareAt (s.tab i) k = some (j, sh)) :
    applyUndo i k s = (s.setShare j (.held sh.undo)).raised (toLanes .tabChanged (s.tab i).followers) := by
  simp only [applyUndo, h]
  exact touch_eq i _

/-- What queueing leaves of a request that is about no line: the entry at the end of the queue, the counter past its number, and
APPROVAL_WAITING to the holder (R117, R118). -/
theorem queueEntry_noLine {l : Lane} {i : Slot} {ask : Ask} (reason : Nat) {number : Nat} {s : State} (hask : askLine ask = none)
    (hn : s.nextApproval = number) :
    queueEntry l i ask reason s
      = State.raised (toPort .approvalWaiting s.token)
        { s with
          approvals := s.approvals ++
            [{ number := number, ask := ask, requester := l, tab := (s.tab i).number, reason := reason, queuedAt := s.clock }]
          approvalCounter := nextNumber 255 number } := by
  simp only [queueEntry, hask, raisePort_eq, hn]
  rfl

theorem asksUndoOf_iff {k : Nat} {ask : Ask} : asksUndoOf k ask = true ↔ ask = .undoTender k := by simp [asksUndoOf]

/-- An UNDO_TENDER that passes its checks goes the ways of R117. -/
theorem undoTender_passes {l : Lane} {tag : Nat} {f : UndoTenderFields} {i : Slot} {r : SplitRef} {j : ShareNo} {sh : Share}
    {s t : State} {status : Status} {body : List Field} {ev : Raised} (h : tillReady l tag s = true) (hi : s.findTab f.tab = some i)
    (hpin : (s.tab i).pin = none ∨ l ∈ (s.tab i).unlocked) (hst : (s.tab i).state = .settling)
    (hsplit : (s.tab i).split = some r) (hx : r.totals ≠ none) (howner : (s.tab i).owner = some l)
    (hsh : s.shareAt (s.tab i) f.share = some (j, sh)) (hreason : f.reason ≤ 15) (htenders : sh.tenders ≠ [])
    (hnone : ∀ e ∈ s.approvals, e.tab ≠ (s.tab i).number ∨ e.ask ≠ .undoTender f.share)
    (hv : supervise l i (.undoTender f.share) f.reason (s.naming l i) (answer (applyUndo i f.share (s.naming l i)) .ok)
        (answer (s.naming l i) .approvalsFull) (fun n => [Field.small n])
      = answer ((huntAgain (.lane l) t).raised ev) status body)
    (hports : t.ports = s.ports) (ho : t.officeReceiver = s.officeReceiver) :
    exec (.undoTender (.lane l) tag (.fields f)) s = .next (t.answered (.lane l) tag 0x33 status body ev) := by
  refine serve_tab h rfl hi (fun _ => rfl) ?_ hports ho
  have hsh' : (s.naming l i).shareAt ((s.naming l i).tab i) f.share = some (j, sh) := by
    rw [naming_tab, shareAt_named]
    exact hsh
  have hreason' : ¬Config.maxReason < f.reason := Nat.not_lt.mpr hreason
  have hwaiting : ((s.naming l i).approvals.any fun e =>
      e.tab = ((s.naming l i).tab i).number && asksUndoOf f.share e.ask) = false := by
    rw [List.any_eq_false]
    intro e he
    simpa only [naming_tab, Tab.named_number, Bool.and_eq_true, decide_eq_true_eq, asksUndoOf_iff, not_and_or] using hnone e he
  rw [withOwnSplit_owner h hpin hst hsplit hx howner]
  simp only [hsh', hreason', htenders, hwaiting, Bool.false_eq_true, if_false]
  exact hv

/-- Settles O51: past its checks, applied for the holder and queued for another till. -/
theorem undoTenderAppliedOrQueued : Obligations.UndoTenderAppliedOrQueued := by
  intro l tag f i r j sh d ds s hready hi hpin hst hsplit hx howner hsh hreason htenders hnone
  have hsome : sh.tenders ≠ [] := by simp [htenders]
  refine ⟨fun htoken => ?_, fun number htoken hroom hc1 hc2 hfirst => ?_⟩
  · refine undoTender_passes
      (t := (s.setTab i ((s.tab i).named (.lane l))).setShare j
        (.held { sh with paid := sh.paid - d.applied, tenders := ds, state := .due }))
      hready hi hpin hst hsplit hx howner hsh hreason hsome hnone ?_ rfl rfl
    have hsh' : (s.naming l i).shareAt ((s.naming l i).tab i) f.share = some (j, sh) := by
      rw [naming_tab, shareAt_named]
      exact hsh
    rw [supervise_holder (s := s.naming l i) htoken, applyUndo_eq hsh', Share.undo_last htenders, naming_tab, Tab.named_followers]
    rfl
  · have hn : (s.naming l i).nextApproval = number := nextApproval_eq (s := s) hc1 hc2 hfirst
    refine undoTender_passes
      (t := { s with
        tabs := s.tabs.set i ((s.tab i).named (.lane l))
        approvals := s.approvals ++
          [{ number := number, ask := .undoTender f.share, requester := l, tab := (s.tab i).number
             reason := f.reason, queuedAt := s.clock }]
        approvalCounter := nextNumber 255 number })
      hready hi hpin hst hsplit hx howner hsh hreason hsome hnone ?_ rfl rfl
    rw [supervise_room (s := s.naming l i) htoken hroom, queueEntry_noLine f.reason rfl hn, hn, naming_tab, Tab.named_number]
    rfl

/-! ### A split released (R129, R159) -/

theorem asksUndo_eq (ask : Ask) : asksUndo ask = (askShare ask).isSome := by cases ask <;> rfl

/-- A tab OPEN again, without its split (R159). -/
def Tab.reopened (t : Tab) : Tab := { t with state := .opened, split := none, owner := none, claim := none }

theorem Tab.named_reopened (p : Port) (t : Tab) : (t.named p).reopened = t.reopened := by
  unfold Tab.named
  split <;> rfl

/-- A state with the split of the tab in a slot released and its UNDO_TENDER entries ended (R129, R159). -/
def State.released (i : Slot) (s : State) : State :=
  State.ended (s.undosOf (s.tab i).number) .stale ((freeShares (s.tab i).shareRefs s).setTab i (s.tab i).reopened)

/-- What a release raises: TAB_CHANGED to the followers, APPROVAL_DONE to the requesters (R129, R159). -/
def releaseRaised (i : Slot) (s : State) : Raised :=
  both (toLanes .tabChanged (s.tab i).followers) (toRequesters (s.undosOf (s.tab i).number))

theorem releaseSplit_eq {i : Slot} {s : State} (hn : (s.approvals.map Entry.number).Nodup) :
    releaseSplit i s = (s.released i).raised (releaseRaised i s) := by
  let u := (freeShares (s.tab i).shareRefs s).setTab i (s.tab i).reopened
  have hself : u.tab i = (s.tab i).reopened := State.setTab_tab_self _ i _
  have hundos : (u.approvals.filter fun e => e.tab = (u.tab i).number && asksUndo e.ask) = s.undosOf (s.tab i).number := by
    rw [hself]
    simp only [asksUndo_eq]
    rfl
  have hstale := endStale_eq (u.tab i).number asksUndo u hn
  dsimp only at hstale
  rw [hundos] at hstale
  have hrelease : releaseSplit i s = touch i (endStale (u.tab i).number asksUndo u) := rfl
  have hfollowers : (State.ended (s.undosOf (s.tab i).number) .stale u).tab i = (s.tab i).reopened := hself
  rw [hrelease, hstale, touch_eq, raised_tab, hfollowers, raised_raised, both_comm]
  rfl

/-! ### DROP_SPLIT (R159, R160) -/

theorem naming_released (l : Lane) (i : Slot) (s : State) : (s.naming l i).released i = huntAgain (.lane l) (s.released i) := by
  have hset := naming_setTab l i (freeShares (s.tab i).shareRefs s) (s.tab i).reopened
  simp only [State.released, naming_tab, Tab.named_number, Tab.named_shareRefs, Tab.named_reopened]
  exact congrArg (State.ended (s.undosOf (s.tab i).number) .stale) hset

/-- Settles O52: the settle owner's request meets no check, and the release depends on whether a tender stands. -/
theorem dropSplitReleases : Obligations.DropSplitReleases := by
  intro l tag n i r s hready hi hpin hst hsplit hx howner
  have hany : (s.naming l i).anyTender ((s.naming l i).tab i) = (s.sharesOf (s.tab i)).any fun sh => sh.tenders ≠ [] := by
    rw [naming_tab, State.anyTender, sharesOf_named]
    rfl
  refine ⟨fun htender => ?_, fun hfree hn => ?_⟩
  · refine serve_tab_refused hready rfl hi (fun _ => rfl) ?_
    rw [withOwnSplit_owner hready hpin hst hsplit hx howner, hany, if_pos htender]
  · obtain ⟨-, -, -, rfl⟩ := findTab_some hi
    have hrefs : (s.tab i).shareRefs = r.refs := by rw [Tab.shareRefs, hsplit]
    have hdrop : exec (.dropSplit (.lane l) tag (.fields (s.tab i).number)) s
        = .next ((s.released i).answered (.lane l) tag 0x34 .ok [] (releaseRaised i s)) := by
      refine serve_tab hready rfl hi (fun _ => rfl) ?_ rfl rfl
      have hraised : releaseRaised i (s.naming l i) = releaseRaised i s := by
        simp only [releaseRaised, naming_tab, Tab.named_followers, Tab.named_number]
        rfl
      rw [withOwnSplit_owner hready hpin hst hsplit hx howner, hany, hfree, releaseSplit_eq (s := s.naming l i) hn, naming_released,
        hraised]
      rfl
    rw [hdrop, ← hrefs]
    rfl

/-! ### A claim that lapses (R162) -/

/-- A tab that its settle owner has lost (R162). -/
def Tab.ownerless (t : Tab) : Tab := { t with owner := none, claim := none }

theorem loseOwner_eq (i : Slot) (s : State) :
    loseOwner i s
      = if s.anyTender (s.tab i) then touch i (s.setTab i (s.tab i).ownerless)
        else releaseSplit i (s.setTab i (s.tab i).ownerless) := by
  have hself : (s.setTab i (s.tab i).ownerless).tab i = (s.tab i).ownerless := State.setTab_tab_self s i _
  have hany : State.anyTender (s.setTab i (s.tab i).ownerless) ((s.setTab i (s.tab i).ownerless).tab i)
      = s.anyTender (s.tab i) := by
    rw [hself]
    rfl
  rw [← hany]
  rfl

/-- With a tender standing the tab stays SETTLING (R162). -/
theorem loseOwner_tendered {i : Slot} {s : State} (h : s.anyTender (s.tab i) = true) :
    loseOwner i s = (s.setTab i (s.tab i).ownerless).raised (toLanes .tabChanged (s.tab i).followers) := by
  rw [loseOwner_eq, if_pos h, touch_eq, State.setTab_tab_self]
  rfl

/-- With none the split is released (R159, R162). -/
theorem loseOwner_untendered {i : Slot} {s : State} (h : s.anyTender (s.tab i) = false)
    (hn : (s.approvals.map Entry.number).Nodup) :
    loseOwner i s = (s.released i).raised (releaseRaised i s) := by
  have hself : (s.setTab i (s.tab i).ownerless).tab i = (s.tab i).ownerless := State.setTab_tab_self s i _
  have hset : (freeShares (s.tab i).shareRefs (s.setTab i (s.tab i).ownerless)).setTab i (s.tab i).reopened
      = (freeShares (s.tab i).shareRefs s).setTab i (s.tab i).reopened :=
    State.setTab_setTab (freeShares (s.tab i).shareRefs s) i _ _
  rw [loseOwner_eq, h, if_neg Bool.false_ne_true, releaseSplit_eq (s := s.setTab i (s.tab i).ownerless) hn, State.released,
    releaseRaised, hself]
  exact congrArg (fun u => State.raised _ (State.ended _ .stale u)) hset

/-- A claim countdown at 0 on a SETTLING tab: its owner is told, and lost (R162). -/
theorem lapseClaim_due {n : Nat} {i : Slot} {l : Lane} {s : State} (hi : s.findTab n = some i) (hc : (s.tab i).claim = some 0)
    (hst : (s.tab i).state = .settling) (ho : (s.tab i).owner = some l) :
    lapseClaim n s = loseOwner i (s.raised (toPort .claimLapsed (.lane l))) := by
  simp only [lapseClaim, hi, hc, hst, ho, and_self, if_true, raiseOptional_eq, Option.toList_some, toLanes_one]

/-- Settles O7: what the owner's loss leaves, with CLAIM_LAPSED raised before it. -/
theorem claimLapseEndsOwnership : Obligations.ClaimLapseEndsOwnership := by
  intro n i l s hpin hi hc hst ho
  obtain ⟨-, -, -, hnum⟩ := findTab_some hi
  have hlapse := lapseClaim_due hi hc hst ho
  refine ⟨fun htender => ?_, fun hfree hn => ?_⟩
  · refine happen_raised _ _ s (s.setTab i (s.tab i).ownerless) hpin ?_ rfl
    rw [hlapse, loseOwner_tendered (s := s.raised _) htender, ← raised_raised]
    rfl
  · subst hnum
    refine happen_raised _ _ s (s.released i) hpin ?_ rfl
    rw [hlapse, loseOwner_untendered (s := s.raised _) hfree hn, both_assoc, ← raised_raised]
    rfl

end Sys2Proof.Machine
end

section
/-! SUPPORT. The supervisor token: PASS_SUPERVISOR and RECLAIM (R110 to R112), the queue and the results read (R119, R130), and its
return by a SET_PORT that keeps the standing (R113, R169). -/

namespace Sys2Proof.Machine

/-! ### Requests of tills and the office -/

theorem taken_of_desk {p : Port} {tag : Nat} {s : State} (h : deskReady p tag s = true) : Taken p tag s := by
  cases p with
  | office => exact officeReady_spec h
  | lane l =>
    simp only [deskReady, tillReady, Bool.and_eq_true] at h
    exact laneReady_spec h.1

theorem mayRequest_of_desk {p : Port} {tag : Nat} {s : State} {k : Kind} (h : deskReady p tag s = true)
    (hk : senders k = senderTillsAndOffice) : mayRequest p k s = true := by
  cases p with
  | office => simp [mayRequest, hk, senderTillsAndOffice]
  | lane l =>
    simp only [deskReady, tillReady, Bool.and_eq_true, decide_eq_true_eq] at h
    simp [mayRequest, h.2, hk, senderTillsAndOffice]

/-! ### The token moves (R110 to R112) -/

theorem giveToken_huntAgain (p q : Port) (s : State) : giveToken q (huntAgain p s) = huntAgain p (giveToken q s) := by
  cases p <;> rfl

/-- APPROVAL_WAITING to a new holder, when entries wait (R110). -/
def waitingRaised (q : Port) (s : State) : Raised := if s.approvals = [] then nobody else toPort .approvalWaiting q

/-- The token given to a port, events raised, and the queue announced to the new holder (R110). -/
theorem announceQueue_given (p q : Port) (r : Raised) (s : State) :
    announceQueue ((giveToken q (huntAgain p s)).raised r)
      = (huntAgain p { s with token := q }).raised (both r (waitingRaised q s)) := by
  rw [announceQueue_eq, giveToken_huntAgain, raised_raised, raised_approvals, raised_token, huntAgain_approvals, huntAgain_token]
  rfl

/-- PASS_SUPERVISOR from the holder to another till that may hold the token (R111). -/
theorem passSupervisor_moves {p : Port} {l : Lane} {s : State} (ht : s.token = p) (hne : p ≠ .lane l)
    (hrole : (s.port l).role = .till) (hsup : (s.port l).supervisor = true) :
    passSupervisor p l.val (huntAgain p s)
      = answer ((huntAgain p { s with token := .lane l }).raised
          (both (both (toPort .tokenGiven (.lane l)) (toPort .tokenTaken p)) (waitingRaised (.lane l) s))) .ok
          [Field.small l.val] := by
  have hentry : mayHold ((huntAgain p s).port l) = true := by
    refine mayHold_iff.mpr ⟨(huntAgain_role s p l).trans hrole, ?_⟩
    rw [huntAgain_port, if_neg hne, hsup]
  have htoken : ¬(huntAgain p s).token ≠ p := by simpa using ht
  simp only [passSupervisor, if_neg htoken, fin?_val, hentry, Bool.not_true, Bool.false_eq_true, if_false, if_neg hne, raisePort_eq,
    raised_raised, announceQueue_given, holderCode]

theorem reclaim_moves {l : Lane} {s : State} (ht : s.token = .lane l) :
    reclaim () (huntAgain .office s)
      = answer ((huntAgain .office { s with token := .office }).raised
          (both (toPort .tokenTaken (.lane l)) (waitingRaised .office s))) .ok [Field.small 255] := by
  have ht' : (huntAgain .office s).token = .lane l := ht
  simp only [reclaim, ht', raiseLanes_eq, toLanes_one, announceQueue_given, holderCode]

/-! ### The queue and the results read (R119, R130) -/

theorem entryFields_huntAgain (p q : Port) (s : State) : entryFields q (huntAgain p s) = entryFields q s := by
  have hfig (t : Tab) : figure q t (huntAgain p s) = figure q t s := figure_congr fun l => huntAgain_role s p l
  have htab (n : Nat) : (huntAgain p s).tabNumbered n = s.tabNumbered n := by cases p <;> rfl
  funext e
  simp only [entryFields, hfig, htab]

/-- The place after a page of a list, for APPROVAL_LIST (R119). -/
theorem nextPosition_eq {α : Type} (rest : List α) (start : Nat) :
    optField (fun _ => [Field.small (start + 8)]) rest[8]?
      = if 8 < rest.length then [Field.presence true, Field.small (start + 8)] else [Field.presence false] := by
  split
  · rw [List.getElem?_eq_getElem ‹_›]
    rfl
  · rw [List.getElem?_eq_none (by omega)]
    rfl

theorem approvalList_page {p : Port} {start : Nat} {s : State} (ht : s.token = p) (hstart : start ≤ 15) :
    (let rest := s.approvals.drop start
     approvalList p start (huntAgain p s)
      = answer (huntAgain p s) .ok
        ([Field.number s.approvals.length, Field.listCount (min 8 rest.length)]
          ++ (rest.take 8).flatMap (entryFields p s)
          ++ if 8 < rest.length then [Field.presence true, Field.small (start + 8)] else [Field.presence false])) := by
  have htoken : ¬(huntAgain p s).token ≠ p := by simpa using ht
  have hrange : ¬Config.maxApprovalPosition < start := Nat.not_lt.mpr hstart
  simp only [approvalList, if_neg htoken, if_neg hrange, huntAgain_approvals, entryFields_huntAgain, Config.approvalPage,
    nextPosition_eq, listField, List.length_take]
  rfl

/-- Settles O42: what each of the five requests answers. -/
theorem tokenMovesAndQueueReads : Obligations.TokenMovesAndQueueReads := by
  intro tag s
  refine ⟨fun p l hready ht hne hrole hsup => ?_, fun l hready ht => ?_, fun hready ht => ?_, fun p start hready ht hstart => ?_,
    fun l hready => ?_⟩
  · exact serve_answered (taken_of_desk hready) (mayRequest_of_desk hready rfl) (passSupervisor_moves ht hne hrole hsup) rfl rfl
  · exact serve_answered (officeReady_spec hready) rfl (reclaim_moves ht) rfl rfl
  · refine serve_unchanged (t := s) (officeReady_spec hready) rfl ?_ rfl rfl
    have ht' : (huntAgain .office s).token = .office := ht
    simp only [reclaim, ht', holderCode]
  · exact serve_unchanged (t := s) (taken_of_desk hready) (mayRequest_of_desk hready rfl) (approvalList_page ht hstart) rfl rfl
  · exact serve_unchanged (t := { s with results := s.results.set l [] }) (taken_of_join hready) (mayRequest_of_join hready rfl)
      rfl rfl rfl

end Sys2Proof.Machine
end

section
/-! SUPPORT. SET_PORT that is refused, and SET_PORT that keeps the standing (R113, R169). -/

namespace Sys2Proof.Machine

/-! ### The checks (R169) -/

theorem roleOfCode_none {n : Nat} (h : 2 < n) : roleOfCode n = none := by
  obtain ⟨k, rfl⟩ : ∃ k, n = k + 3 := ⟨n - 3, by omega⟩
  rfl

theorem roleOfCode_roleCode (r : Role) : roleOfCode (roleCode r) = some r := by cases r <;> rfl

theorem roleOfCode_eq_station {n : Nat} (h : roleOfCode n = some .station) : n = 2 := by
  match n, h with
  | 2, _ => rfl

/-- A role out of range, a STATION without a station in range, or another role with one (R169, steps 2 and 3). -/
theorem standing?_none {f : SetPortFields}
    (h : 2 < f.role ∨ (f.role = 2 ∧ (f.station = none ∨ ∃ n, f.station = some n ∧ 7 < n))
      ∨ (f.role ≠ 2 ∧ f.station ≠ none)) :
    standing? f = none := by
  rcases h with h | ⟨h2, hnone | ⟨n, hn, h7⟩⟩ | ⟨h2, hsome⟩
  · simp only [standing?, roleOfCode_none h]
  · rw [standing?, h2, hnone]
    rfl
  · have hout : fin? 8 n = none := fin?_none (by omega)
    rw [standing?, h2, hn]
    simp only [roleOfCode, hout, Option.map_none]
  · obtain ⟨n, hn⟩ := Option.ne_none_iff_exists'.mp hsome
    unfold standing?
    rw [hn]
    split
    · simp_all
    · simp_all
    · exact absurd (roleOfCode_eq_station (by assumption)) h2
    · rfl

/-- A SET_PORT whose checks fail is refused and resets no port (R169). -/
theorem setPort_refused {tag : Nat} {f : SetPortFields} {s : State} (h : officeReady tag s = true)
    (hbad : fin? 16 f.port = none ∨ standing? f = none) :
    exec (.setPort .office tag (.fields f)) s = .next (s.answered .office tag 0x50 .badField [] nobody) := by
  have hlane : resetLane f s = none := by
    unfold resetLane
    rcases hbad with hb | hb
    · rw [hb]
    · rw [hb]
      split <;> simp_all
  have hreq (u : State) : setPortRequest f u = answer u .badField := by
    unfold setPortRequest
    rcases hbad with hb | hb
    · rw [hb]
    · rw [hb]
      split <;> simp_all
  have hanswer := conclude_answer .office tag .setPort s (huntAgain .office s) .badField [] nobody rfl rfl
  rw [raised_nobody, answered_huntAgain] at hanswer
  rw [setPort_concluded f h, hlane, hreq, hanswer]
  rfl

/-! ### The standing kept (R113, R169) -/

/-- The notices of a step read the state before it through its pending sets alone. -/
theorem composeNotices_congr (fresh : Option Lane) {b b' : State} (s : State)
    (h : ∀ m, (b.port m).pendingSet = (b'.port m).pendingSet) : composeNotices fresh b s = composeNotices fresh b' s := by
  simp only [composeNotices, withNotice_congr _ _ _ _ (h _)]

/-- What an office request answers that leaves a lane another entry with the same event set and mask. -/
theorem conclude_newEntry {tag : Nat} {k : Kind} {l : Lane} {e : PortEntry} {s t : State} (status : Status) (body : List Field)
    (r : Raised) (he : e.pendingSet = (s.port l).pendingSet) (hp : t.ports = s.ports.set l e) :
    conclude .office tag k none (huntAgain .office s) (answer ((huntAgain .office t).raised r) status body)
      = t.answered .office tag (kindCode k) status body r := by
  have hbefore (m : Lane) : ((huntAgain .office s).port m).pendingSet
      = ((huntAgain .office (s.setPort l e)).port m).pendingSet := by
    refine Eq.trans ?_ (congrArg PortEntry.pendingSet (State.setPort_port s l m e)).symm
    split
    · subst_vars; exact he.symm
    · rfl
  rw [conclude, composeNotices_congr none _ hbefore, ← conclude,
    conclude_answer .office tag k (s.setPort l e) (huntAgain .office t) status body r hp rfl, answered_huntAgain]

/-- The entry a SET_PORT that keeps the standing leaves its lane (R169). -/
def PortEntry.reflagged (f : SetPortFields) (e : PortEntry) : PortEntry :=
  { e with supervisor := f.supervisor && e.role = .till, notices := f.notices }

theorem applyFlags_same (l : Lane) (f : SetPortFields) (s : State) :
    applyFlags l f (s.port l).role s = s.setPort l ((s.port l).reflagged f) := rfl

/-- What a SET_PORT that keeps the standing of a lane leaves (R113, R169). -/
theorem keepStanding_eq (l : Lane) (f : SetPortFields) (s : State) :
    (let e := (s.port l).reflagged f
     keepStanding l f (s.port l).role s
      = if s.token = .lane l ∧ e.supervisor = false then
          (giveToken .office (s.setPort l e)).raised
            (both (toPort .tokenTaken (.lane l)) (both (toPort .tokenGiven .office) (waitingRaised .office s)))
        else s.setPort l e) := by
  intro e
  have hself : (s.setPort l e).port l = e := State.setPort_port_self s l e
  unfold keepStanding
  rw [applyFlags_same]
  dsimp only
  rw [hself]
  refine if_congr Iff.rfl ?_ rfl
  rw [returnToken, raiseOffice_eq, announceQueue_eq, raised_raised, raiseLanes_eq, raised_raised, toLanes_one, both_comm]
  rfl

/-- A SET_PORT whose operands are the standing the lane has. -/
theorem standing?_kept {f : SetPortFields} {e : PortEntry} (hr : f.role = roleCode e.role) (hst : f.station = e.bound.map Fin.val)
    (hb : e.bound.isSome = true ↔ e.role = .station) : standing? f = some (e.role, e.bound) := by
  unfold standing?
  rw [hr, hst, roleOfCode_roleCode]
  cases hbound : e.bound with
  | none =>
    have hrole : e.role ≠ .station := fun h => by simp [hbound] at hb; exact hb h
    cases hrole' : e.role with
    | off => rfl
    | till => rfl
    | station => exact absurd hrole' hrole
  | some st =>
    have hrole : e.role = .station := hb.mp (by simp [hbound])
    rw [hrole]
    simp [fin?_val]

/-- What a SET_PORT answers that leaves its lane an entry, raises events and resets no port. -/
theorem setPort_keeping {tag : Nat} {f : SetPortFields} {l : Lane} {e : PortEntry} {ev : Raised} {s t : State}
    (h : officeReady tag s = true) (hl : fin? 16 f.port = some l) (hst : standing? f = some ((s.port l).role, (s.port l).bound))
    (hk : keepStanding l f (s.port l).role (huntAgain .office s) = (huntAgain .office t).raised ev)
    (he : e.pendingSet = (s.port l).pendingSet) (hp : t.ports = s.ports.set l e) :
    exec (.setPort .office tag (.fields f)) s = .next (t.answered .office tag 0x50 .ok (portFields e) ev) := by
  have hsame : changesStanding (s.port l).role (s.port l).bound (s.port l) = false := by simp [changesStanding]
  have hsame' : changesStanding (s.port l).role (s.port l).bound ((huntAgain .office s).port l) = false := hsame
  have hlane : resetLane f s = none := by simp [resetLane, hl, hst, hsame]
  have hport : t.port l = e := by rw [State.port, hp, get_set_self]
  have hfields : portFields (((huntAgain .office t).raised ev).port l) = portFields e := by
    rw [raised_port, ← hport]
    rfl
  have hreq : setPortRequest f (huntAgain .office s) = answer ((huntAgain .office t).raised ev) .ok (portFields e) := by
    simp only [setPortRequest, hl, hst, hsame', Bool.false_eq_true, if_false, hk, hfields]
  rw [setPort_concluded f h, hlane, hreq, conclude_newEntry .ok _ ev he hp]
  rfl

/-- Settles O12: refused by the checks; otherwise the flags replaced, and the token back with the office where its holder lost
supervisor-capable. -/
theorem setPortKeepsStanding : Obligations.SetPortKeepsStanding := by
  intro tag f l s hready
  refine ⟨fun hbad => setPort_refused hready ?_, fun hport hrole hstation hb => ?_⟩
  · rcases hbad with hbad | hbad
    · exact .inl (fin?_none (by omega))
    · exact .inr (standing?_none hbad)
  · have hl : fin? 16 f.port = some l := by rw [hport, fin?_val]
    have hst := standing?_kept hrole hstation hb
    have hkeep := keepStanding_eq l f (huntAgain .office s)
    intro sup e body
    have hbody : portFields e = body := by
      simp only [body, hrole]
      rfl
    rw [← hbody]
    split
    · rename_i hlost
      refine setPort_keeping (t := giveToken .office (s.setPort l e)) hready hl hst (hkeep.trans ?_) rfl rfl
      exact if_pos hlost
    · rename_i hkept
      refine setPort_keeping (t := s.setPort l e) hready hl hst (hkeep.trans ?_) rfl rfl
      rw [raised_nobody]
      exact if_neg hkept

end Sys2Proof.Machine
end

section
/-! SUPPORT. Entries decided and withdrawn: what DENY and WITHDRAW leave (R126, R127, R129), the effects of APPROVE kind by kind
(R120 to R125), and the entries that are STALE. -/

namespace Sys2Proof.Machine

/-! ### An entry ended, under a request (R116, R129) -/

theorem joined_one (old : List Result) (r : Result) : joined old [r] = pushResult r old := by
  rw [← joined_cons]
  exact if_pos rfl

/-- `State.entryGone` in the words of the statements. -/
theorem entryGone_joined (v : Verdict) (e : Entry) (s : State) :
    s.entryGone v e
      = { s with
          approvals := s.approvals.filter fun x => x.number ≠ e.number
          results := s.results.set e.requester (joined (s.resultsOf e.requester)
            [{ number := e.number, ask := e.ask, tab := e.tab, verdict := v, decidedAt := s.clock }]) } := by
  rw [joined_one]
  rfl

theorem entryGone_huntAgain (v : Verdict) (e : Entry) (p : Port) (s : State) :
    (huntAgain p s).entryGone v e = huntAgain p (s.entryGone v e) := by cases p <;> rfl

/-- APPROVAL_DONE to the requester of an entry (R129). -/
def doneRaised (e : Entry) : Raised := toPort .approvalDone (.lane e.requester)

theorem nobody_both (a : Raised) : both nobody a = a := (both_comm _ _).trans (both_nobody a)

theorem both_self (a : Raised) : both a a = a := funext fun _ => BitVec.or_self

/-- An event raised again adds nothing. -/
theorem both_again (a b : Raised) : both (both a b) a = both a b := by
  rw [both_comm (both a b), ← both_assoc, both_self]

/-- An entry about no line decided: no more than ended (R120, R126). -/
theorem decideEntry_noLine {v : Verdict} {e : Entry} (s : State) (r : Raised) (hask : askLine e.ask = none) :
    decideEntry v e (s.raised r) = (s.entryGone v e).raised (both r (doneRaised e)) := by
  have hclear : clearPending e (s.raised r) = s.raised r := by simp only [clearPending, hask]
  rw [decideEntry, hclear, closeEntry_raised]
  rfl

/-- One tab replaced, with TAB_CHANGED to its followers. -/
theorem touch_modifyTab {i : Slot} {s : State} {f : Tab → Tab} {u : Tab} (hu : f (s.tab i) = u)
    (hf : u.followers = (s.tab i).followers) :
    touch i (s.modifyTab i f) = (s.setTab i u).raised (toLanes .tabChanged (s.tab i).followers) := by
  rw [State.modifyTab, hu, touch_eq, State.setTab_tab_self, hf]

/-- An entry about a line decided: the line no longer pending, TAB_CHANGED, and the entry ended (R120, R126). -/
theorem decideEntry_line {v : Verdict} {e : Entry} {n : Nat} {i : Slot} {x : Line} {s : State} (r : Raised)
    (hask : askLine e.ask = some n) (hi : s.findTab e.tab = some i) (hx : (s.tab i).line? n = some x) :
    decideEntry v e (s.raised r)
      = ((s.setTab i ((s.tab i).setLine n { x with pending := none })).entryGone v e).raised
          (both (both r (toLanes .tabChanged (s.tab i).followers)) (doneRaised e)) := by
  have hi' : (s.raised r).findTab e.tab = some i := hi
  have hclear : clearPending e (s.raised r)
      = (s.setTab i ((s.tab i).setLine n { x with pending := none })).raised
          (both r (toLanes .tabChanged (s.tab i).followers)) := by
    simp only [clearPending, hask, hi']
    rw [touch_modifyTab (s := s.raised r) (f := fun t => t.markLine n none) (Tab.markLine_eq hx none) rfl, ← raised_raised]
    rfl
  rw [decideEntry, hclear, closeEntry_raised]
  rfl

/-! ### DENY and WITHDRAW (R126, R127) -/

/-- What DENY by the holder answers. -/
theorem deny_answers {p : Port} {tag : Nat} {e : Entry} {s t : State} {r : Raised} (h : deskReady p tag s = true) (ht : s.token = p)
    (he : s.findEntry e.number = some e) (hd : decideEntry .denied e (huntAgain p s) = (huntAgain p t).raised r)
    (hp : t.ports = s.ports) (ho : t.officeReceiver = s.officeReceiver) :
    exec (.deny p tag (.fields e.number)) s = .next (t.answered p tag 0x2C .ok (decisionFields e .denied) r) := by
  refine serve_answered (taken_of_desk h) (mayRequest_of_desk h rfl) ?_ hp ho
  have htoken : ¬(huntAgain p s).token ≠ p := by simpa using ht
  have he' : (huntAgain p s).findEntry e.number = some e := by
    rw [State.findEntry, huntAgain_approvals]
    exact he
  simp only [deny, if_neg htoken, he', hd]

/-- What WITHDRAW by the requester answers. -/
theorem withdraw_answers {tag : Nat} {e : Entry} {s t : State} {r : Raised} (h : joinReady e.requester tag s = true)
    (he : s.findEntry e.number = some e)
    (hd : decideEntry .withdrawn e (huntAgain (.lane e.requester) s) = (huntAgain (.lane e.requester) t).raised r)
    (hp : t.ports = s.ports) (ho : t.officeReceiver = s.officeReceiver) :
    exec (.withdraw (.lane e.requester) tag (.fields e.number)) s
      = .next (t.answered (.lane e.requester) tag 0x2D .ok (decisionFields e .withdrawn) r) := by
  refine serve_answered (taken_of_join h) (mayRequest_of_join h rfl) ?_ hp ho
  have he' : (huntAgain (.lane e.requester) s).findEntry e.number = some e := he
  simp only [withdraw, he', ne_eq, not_true_eq_false, if_false, hd]

/-- WITHDRAW of another port's entry is refused (R127). -/
theorem withdraw_notOwner {l : Lane} {tag : Nat} {e : Entry} {s : State} (h : joinReady l tag s = true) (hl : l ≠ e.requester)
    (he : s.findEntry e.number = some e) :
    exec (.withdraw (.lane l) tag (.fields e.number)) s = .next (s.answered (.lane l) tag 0x2D .notOwner [] nobody) := by
  refine serve_unchanged (taken_of_join h) (mayRequest_of_join h rfl) ?_ rfl rfl
  have he' : (huntAgain (.lane l) s).findEntry e.number = some e := he
  simp only [withdraw, he', ne_eq, Ne.symm hl, not_false_eq_true, if_true]

/-- An entry about no line decided under a request. -/
theorem decideEntry_noLine_hunting {v : Verdict} {e : Entry} (p : Port) (s : State) (hask : askLine e.ask = none) :
    decideEntry v e (huntAgain p s) = (huntAgain p (s.entryGone v e)).raised (doneRaised e) := by
  have h := decideEntry_noLine (v := v) (huntAgain p s) nobody hask
  rwa [raised_nobody, nobody_both, entryGone_huntAgain] at h

/-- An entry about a line decided under a request. -/
theorem decideEntry_line_hunting {v : Verdict} {e : Entry} {n : Nat} {i : Slot} {x : Line} {s : State} (p : Port)
    (hask : askLine e.ask = some n) (hi : s.findTab e.tab = some i) (hx : (s.tab i).line? n = some x) :
    decideEntry v e (huntAgain p s)
      = (huntAgain p ((s.setTab i ((s.tab i).setLine n { x with pending := none })).entryGone v e)).raised
          (both (toLanes .tabChanged (s.tab i).followers) (doneRaised e)) := by
  have hx' : ((huntAgain p s).tab i).line? n = some x := by rwa [huntAgain_tab]
  have h := decideEntry_line (v := v) nobody hask ((huntAgain_findTab s p e.tab).trans hi) hx'
  rwa [raised_nobody, nobody_both, huntAgain_tab, setTab_huntAgain, entryGone_huntAgain] at h

/-- Settles O44: an entry about no line, then one about a line; either request ends it alike. -/
theorem denyAndWithdraw : Obligations.DenyAndWithdraw := by
  refine ⟨fun tag e s he hask => ⟨fun p hready ht => ?_, fun hready => ?_⟩,
    fun tag e n i x s he hask hi h1 hget => ⟨fun p hready ht => ?_, fun hready => ?_, fun l hl hready => ?_⟩⟩
  · rw [deny_answers hready ht he (decideEntry_noLine_hunting p s hask) rfl rfl, entryGone_joined]
    rfl
  · rw [withdraw_answers hready he (decideEntry_noLine_hunting _ s hask) rfl rfl, entryGone_joined]
    rfl
  · rw [deny_answers hready ht he (decideEntry_line_hunting p hask hi (line?_eq.mpr ⟨h1, hget⟩)) rfl rfl]
    rfl
  · rw [withdraw_answers hready he (decideEntry_line_hunting _ hask hi (line?_eq.mpr ⟨h1, hget⟩)) rfl rfl]
    rfl
  · exact withdraw_notOwner hready hl he

end Sys2Proof.Machine
end

section
/-! SUPPORT. APPROVE (R120 to R125): what it answers where an entry's precondition holds and where it does not, then kind by
kind. -/

namespace Sys2Proof.Machine

/-! ### The request (R120) -/

theorem askReady_huntAgain (p : Port) (i : Slot) (ask : Ask) (s : State) : askReady i ask (huntAgain p s) = askReady i ask s := by
  cases p with
  | office => rfl
  | lane l => cases ask <;> rfl

theorem approveEntry_ready {e : Entry} {i : Slot} {s : State} (hi : s.findTab e.tab = some i) (hr : askReady i e.ask s = true) :
    approveEntry e s = answer (decideEntry .approved e (applyAsk i e.ask s)) .ok (decisionFields e .approved) := by
  simp only [approveEntry, hi, hr, if_true]

theorem approveEntry_stale {e : Entry} {i : Slot} {s : State} (hi : s.findTab e.tab = some i) (hr : askReady i e.ask s = false) :
    approveEntry e s = answer (decideEntry .stale e s) .ok (decisionFields e .stale) := by
  simp only [approveEntry, hi, hr, Bool.false_eq_true, if_false]

/-- An APPROVE by the holder of an entry that waits (R120): the slot of its tab is given. -/
structure Approving (p : Port) (tag : Nat) (e : Entry) (i : Slot) (s : State) : Prop where
  ready : deskReady p tag s = true
  holder : s.token = p
  entry : s.findEntry e.number = some e
  tab : s.findTab e.tab = some i

/-- What APPROVE answers: a verdict on the entry, the entry ended in the state left, and the events raised. -/
def Decides (p : Port) (tag : Nat) (e : Entry) (v : Verdict) (r : Raised) (s u : State) : Prop :=
  exec (.approve p tag (.fields e.number)) s
    = .next ((u.entryGone v e).answered p tag 0x2B .ok (decisionFields e v) (both r (doneRaised e)))

section
variable {p : Port} {tag : Nat} {e : Entry} {i : Slot} {s : State} (ha : Approving p tag e i s)
include ha

theorem Approving.answers {t : State} {v : Verdict} {r : Raised}
    (hb : approveEntry e (huntAgain p s) = answer ((huntAgain p t).raised r) .ok (decisionFields e v)) (hp : t.ports = s.ports)
    (ho : t.officeReceiver = s.officeReceiver) :
    exec (.approve p tag (.fields e.number)) s = .next (t.answered p tag 0x2B .ok (decisionFields e v) r) := by
  refine serve_answered (taken_of_desk ha.ready) (mayRequest_of_desk ha.ready rfl) ?_ hp ho
  have htoken : ¬(huntAgain p s).token ≠ p := by simpa using ha.holder
  have he : (huntAgain p s).findEntry e.number = some e := by
    rw [State.findEntry, huntAgain_approvals]
    exact ha.entry
  simp only [approve, if_neg htoken, he, hb]

/-- An entry about no line whose precondition holds. -/
theorem Approving.applies_noLine {ask : Ask} {w : State} {r : Raised} (hk : e.ask = ask) (hask : askLine ask = none)
    (hr : askReady i ask s = true) (happly : applyAsk i ask (huntAgain p s) = (huntAgain p w).raised r) (hp : w.ports = s.ports)
    (ho : w.officeReceiver = s.officeReceiver) :
    Decides p tag e .approved r s w := by
  subst hk
  refine ha.answers ?_ hp ho
  rw [approveEntry_ready ((huntAgain_findTab s p e.tab).trans ha.tab) ((askReady_huntAgain p i e.ask s).trans hr), happly,
    decideEntry_noLine _ r hask, entryGone_huntAgain]

/-- An entry about a line whose precondition holds: `v` is the state its effect leaves but for the tab, `u` the tab. -/
theorem Approving.applies_line {ask : Ask} {n : Nat} {v : State} {u : Tab} {y : Line} {r : Raised} (hk : e.ask = ask)
    (hask : askLine ask = some n) (hr : askReady i ask s = true)
    (happly : applyAsk i ask (huntAgain p s) = (huntAgain p (v.setTab i u)).raised r)
    (hv : v.tabs = s.tabs) (hnum : u.number = (s.tab i).number) (hst : u.state = (s.tab i).state)
    (hf : u.followers = (s.tab i).followers) (hy : u.line? n = some y)
    (hagain : both r (toLanes .tabChanged (s.tab i).followers) = r) (hp : v.ports = s.ports)
    (ho : v.officeReceiver = s.officeReceiver) :
    Decides p tag e .approved r s (v.setTab i (u.setLine n { y with pending := none })) := by
  subst hk
  refine ha.answers ?_ hp ho
  have hself : (huntAgain p (v.setTab i u)).tab i = u := by rw [huntAgain_tab, State.setTab_tab_self]
  have hfind : (huntAgain p (v.setTab i u)).findTab e.tab = some i := by
    rw [huntAgain_findTab, ← ha.tab]
    refine findTab_congr fun j => ?_
    rw [State.bears, State.bears, State.setTab_tab]
    split
    · subst_vars; rw [hnum, hst]
    · rw [State.tab_congr hv]
  rw [approveEntry_ready ((huntAgain_findTab s p e.tab).trans ha.tab) ((askReady_huntAgain p i e.ask s).trans hr), happly,
    decideEntry_line r hask hfind (hself ▸ hy), hself, hf, hagain, setTab_huntAgain, State.setTab_setTab, entryGone_huntAgain]

/-- An entry about no line without its precondition. -/
theorem Approving.stale_noLine {ask : Ask} (hk : e.ask = ask) (hask : askLine ask = none) (hr : askReady i ask s = false) :
    Decides p tag e .stale nobody s s := by
  subst hk
  rw [Decides, nobody_both]
  refine ha.answers ?_ rfl rfl
  rw [approveEntry_stale ((huntAgain_findTab s p e.tab).trans ha.tab) ((askReady_huntAgain p i e.ask s).trans hr),
    decideEntry_noLine_hunting p s hask]

/-- An entry about a line without its precondition. -/
theorem Approving.stale_line {ask : Ask} {n : Nat} {x : Line} (hk : e.ask = ask) (hask : askLine ask = some n)
    (hx : (s.tab i).line? n = some x) (hr : askReady i ask s = false) :
    Decides p tag e .stale (toLanes .tabChanged (s.tab i).followers) s
      (s.setTab i ((s.tab i).setLine n { x with pending := none })) := by
  subst hk
  refine ha.answers ?_ rfl rfl
  rw [approveEntry_stale ((huntAgain_findTab s p e.tab).trans ha.tab) ((askReady_huntAgain p i e.ask s).trans hr),
    decideEntry_line_hunting p hask ha.tab hx]

end

/-! ### Preconditions (R121 to R125) -/

section
variable {i : Slot} {n : Nat} {x : Line} {s : State}

theorem voidFiredReady_eq (hx : (s.tab i).line? n = some x) :
    voidFiredReady i n s = (x.state = .fired && (s.ticketOf x).isSome) := by simp only [voidFiredReady, hx]

theorem compReady_eq (hx : (s.tab i).line? n = some x) :
    compReady i n s = (x.state ≠ .voided && (s.tab i).state = .opened) := by simp only [compReady, hx]

theorem priceReady_eq (price : Nat) (hx : (s.tab i).line? n = some x) :
    priceReady i n price s
      = (x.state ≠ .voided && (s.tab i).state = .opened && (s.tab i).newBase x price ≤ 50000000) := by
  rw [priceReady, hx]
  rfl

/-- UNDO_TENDER wants the tab SETTLING and a tender of the share (R125). -/
theorem undoReady_eq (k : Nat) :
    undoReady i k s
      = decide ((s.tab i).state = .settling ∧ ((s.shareAt (s.tab i) k).elim [] fun q => q.2.tenders) ≠ []) := by
  unfold undoReady
  split
  · rename_i j sh hsh
    simp [hsh]
  · rename_i hsh
    simp [hsh]

end

/-! ### Effects (R81, R82, R108, R121 to R125) -/

/-- The line replaced is the line found there. -/
theorem Tab.line?_replaced {t u : Tab} {n : Nat} {x y : Line} (hx : t.line? n = some x) (hu : u.lines = t.lines.set (n - 1) y) :
    u.line? n = some y := by
  obtain ⟨h1, hget⟩ := line?_eq.mp hx
  obtain ⟨hlt, -⟩ := List.getElem?_eq_some_iff.mp hget
  refine line?_eq.mpr ⟨h1, ?_⟩
  rw [hu, List.getElem?_set_self hlt]

section
variable {p : Port} {i : Slot} {n : Nat} {x : Line} {s : State}

theorem applyComp_eq (hx : (s.tab i).line? n = some x) (hc : x.comped = false) :
    applyComp i n s = (s.setTab i ((s.tab i).compLine n x)).raised (toLanes .tabChanged (s.tab i).followers) := by
  simp only [applyComp, hx, hc, Bool.false_eq_true, if_false]
  exact touch_modifyTab rfl rfl

theorem applyPrice_eq (price : Nat) (hx : (s.tab i).line? n = some x) :
    applyPrice i n price s = (s.setTab i ((s.tab i).priceLine n x price)).raised (toLanes .tabChanged (s.tab i).followers) := by
  simp only [applyPrice, hx]
  exact touch_modifyTab rfl rfl

theorem applyPinClear_eq (i : Slot) (s : State) :
    applyPinClear i s = (s.setTab i { s.tab i with wrongTries := 0 }).raised (toLanes .tabChanged (s.tab i).followers) :=
  touch_modifyTab rfl rfl

variable {st : StationNo} {place : TicketState} {tk : Ticket} {y : Station}

/-- A VOID_FIRED of a line on a ticket that holds others (R78, R81). -/
theorem applyVoidFired_shortens (hx : (s.tab i).line? n = some x) (htk : s.ticketOf x = some (st, place, tk))
    (he : ¬tk.emptiedBy n = true) (hy : (s.station st).removeLine tk.number n = y) :
    applyVoidFired i n s
      = ((s.setStation st y).setTab i ((s.tab i).voidLine n x)).raised (toLanes .tabChanged (s.tab i).followers) := by
  simp only [applyVoidFired, hx, htk, if_neg he, State.modifyStation, hy]
  exact touch_modifyTab (s := s.setStation st y) rfl rfl

/-- A VOID_FIRED that empties its ticket (R82, R108): TICKET_KILLED besides. -/
theorem applyVoidFired_kills (hx : (s.tab i).line? n = some x) (htk : s.ticketOf x = some (st, place, tk))
    (he : tk.emptiedBy n = true) (hy : (s.station st).removeLine tk.number n = y) :
    applyVoidFired i n s
      = ((s.setStation st y).setTab i ((s.tab i).oneTicketLess.voidLine n x)).raised
          (both (toLanes .tabChanged (s.tab i).followers) (toLanes .ticketKilled (s.station st).port.toList)) := by
  let w := (s.setStation st y).setTab i (s.tab i).oneTicketLess
  have hself : w.tab i = (s.tab i).oneTicketLess := State.setTab_tab_self _ i _
  have hport : ((s.setStation st y).station st).port = (s.station st).port := by rw [State.setStation_station_self, ← hy]; rfl
  have hvoid : applyVoidFired i n s
      = touch i (State.modifyTab (w.raised (toLanes .ticketKilled (s.station st).port.toList)) i fun tab => tab.voidLine n x) := by
    simp only [applyVoidFired, hx, htk, if_pos he, State.modifyStation, hy, raiseOptional_eq, hport]
    rfl
  rw [hvoid, touch_modifyTab (u := (s.tab i).oneTicketLess.voidLine n x) (by rw [raised_tab, hself])
    (by rw [raised_tab, hself]; rfl), raised_tab, hself, setTab_raised, State.setTab_setTab, raised_raised, both_comm]
  rfl

end

theorem Tab.newBase_eq (t : Tab) (x : Line) (price : Nat) :
    t.newBase x price = if x.comped then t.base else t.base - x.price * x.quantity + price * x.quantity := by
  have h := Tab.newBase_named .office t x price
  rwa [Tab.named_office] at h

/-- A line priced and no longer pending (R30, R120, R123). -/
theorem Tab.priceLine_setLine (t : Tab) (n : Nat) (x y : Line) (price : Nat) :
    (t.priceLine n x price).setLine n y
      = { t with
          base := if x.comped then t.base else t.base - x.price * x.quantity + price * x.quantity
          lines := t.lines.set (n - 1) y } := by
  simp [Tab.priceLine, Tab.newBase_eq, Tab.setLine]

/-- A line comped and no longer pending (R30, R120, R122). -/
theorem Tab.compLine_setLine (t : Tab) (n : Nat) {x : Line} (y : Line) (h : x.comped = false) :
    (t.compLine n x).setLine n y = { t with base := t.base - x.price * x.quantity, lines := t.lines.set (n - 1) y } := by
  simp [Tab.compLine, Tab.setLine, Line.amount, h]

/-- A line voided and no longer pending (R29, R30, R120). -/
theorem Tab.voidLine_struck (t : Tab) (n : Nat) (x : Line) :
    (t.voidLine n x).setLine n { x with state := .voided, ticket := none, pending := none } = t.struck n x := by
  simp [Tab.voidLine, Tab.setLine, Tab.struck, Line.amount]

/-! ### Kind by kind -/

/-- A line FIRED on a live ticket in hand, at a station (R41, R66, R121). -/
structure OnTicket (x : Line) (st : StationNo) (place : TicketState) (tk : Ticket) (s : State) : Prop where
  fired : x.state = .fired
  live : s.ticketOf x = some (st, place, tk)
  hand : s.inHand st tk

theorem OnTicket.ready {i : Slot} {n : Nat} {x : Line} {st : StationNo} {place : TicketState} {tk : Ticket} {s : State}
    (hx : (s.tab i).line? n = some x) (hk : OnTicket x st place tk s) : voidFiredReady i n s = true := by
  simp [voidFiredReady_eq hx, hk.fired, hk.live]

section
variable {p : Port} {tag : Nat} {e : Entry} {i : Slot} {s : State} (ha : Approving p tag e i s)
include ha

section
variable {n : Nat} {x : Line} (hx : (s.tab i).line? n = some x)
include hx

theorem Approving.comp (hask : e.ask = .comp n) (hst : x.state ≠ .voided) (hopen : (s.tab i).state = .opened)
    (hc : x.comped = false) :
    Decides p tag e .approved (toLanes .tabChanged (s.tab i).followers) s
      (s.setTab i (((s.tab i).compLine n x).setLine n { x with comped := true, pending := none })) := by
  have hx' : ((huntAgain p s).tab i).line? n = some x := by rwa [huntAgain_tab]
  have happly := applyComp_eq hx' hc
  rw [huntAgain_tab, setTab_huntAgain] at happly
  refine ha.applies_line hask rfl ?_ happly rfl rfl rfl rfl
    (Tab.line?_replaced (y := { x with comped := true }) hx rfl) (both_self _) rfl rfl
  simp [askReady, compReady_eq hx, hst, hopen]

theorem Approving.price {price : Nat} (hask : e.ask = .price n price) (hst : x.state ≠ .voided)
    (hopen : (s.tab i).state = .opened) (hbase : (s.tab i).newBase x price ≤ 50000000) :
    Decides p tag e .approved (toLanes .tabChanged (s.tab i).followers) s
      (s.setTab i (((s.tab i).priceLine n x price).setLine n { x with price := price, pending := none })) := by
  have hx' : ((huntAgain p s).tab i).line? n = some x := by rwa [huntAgain_tab]
  have happly := applyPrice_eq price hx'
  rw [huntAgain_tab, setTab_huntAgain] at happly
  refine ha.applies_line hask rfl ?_ happly rfl rfl rfl rfl
    (Tab.line?_replaced (y := { x with price := price }) hx rfl) (both_self _) rfl rfl
  simp [askReady, priceReady_eq price hx, hst, hopen, hbase]

theorem Approving.voidFired_shortens {st : StationNo} {place : TicketState} {tk : Ticket} {other : Nat}
    (hask : e.ask = .voidFired n) (hk : OnTicket x st place tk s) (hother : other ∈ tk.lines) (hne : other ≠ n) :
    Decides p tag e .approved (toLanes .tabChanged (s.tab i).followers) s
      ((s.setStation st ((s.station st).shortened tk.number n)).setTab i ((s.tab i).struck n x)) := by
  obtain ⟨hqueue, hhand⟩ := hk.hand
  have hx' : ((huntAgain p s).tab i).line? n = some x := by rwa [huntAgain_tab]
  have htk : (huntAgain p s).ticketOf x = some (st, place, tk) := by
    rw [← hk.live]
    cases p <;> rfl
  have hy : ((huntAgain p s).station st).removeLine tk.number n = (s.station st).shortened tk.number n := by
    rw [huntAgain_station]
    exact Station.removeLine_shortened hqueue fun y hy hn => ⟨other, by rwa [hhand y hy hn], hne⟩
  have happly := applyVoidFired_shortens hx' htk (fun he => hne (emptiedBy_iff.mp he other hother)) hy
  rw [huntAgain_tab, setStation_huntAgain, setTab_huntAgain] at happly
  have h := ha.applies_line hask rfl (hk.ready hx) happly rfl rfl rfl rfl
    (Tab.line?_replaced (y := { x with state := .voided, ticket := none }) hx rfl) (both_self _) rfl rfl
  rwa [Tab.voidLine_struck] at h

theorem Approving.voidFired_kills {st : StationNo} {place : TicketState} {tk : Ticket} (hask : e.ask = .voidFired n)
    (hk : OnTicket x st place tk s) (hlast : ∀ other ∈ tk.lines, other = n) :
    Decides p tag e .approved
      (both (toLanes .tabChanged (s.tab i).followers) (toLanes .ticketKilled (s.station st).port.toList)) s
      ((s.setStation st ((s.station st).killed tk.number)).setTab i ((s.tab i).oneTicketLess.struck n x)) := by
  obtain ⟨hqueue, hhand⟩ := hk.hand
  have hx' : ((huntAgain p s).tab i).line? n = some x := by rwa [huntAgain_tab]
  have htk : (huntAgain p s).ticketOf x = some (st, place, tk) := by
    rw [← hk.live]
    cases p <;> rfl
  have hy : ((huntAgain p s).station st).removeLine tk.number n = (s.station st).killed tk.number := by
    rw [huntAgain_station]
    exact Station.removeLine_killed hqueue fun y hy hn => by rwa [hhand y hy hn]
  have happly := applyVoidFired_kills hx' htk (emptiedBy_iff.mpr hlast) hy
  rw [huntAgain_tab, huntAgain_station, setStation_huntAgain, setTab_huntAgain] at happly
  have h := ha.applies_line hask rfl (hk.ready hx) happly rfl rfl rfl rfl
    (Tab.line?_replaced (y := { x with state := .voided, ticket := none }) hx rfl) (both_again _ _) rfl rfl
  rwa [Tab.voidLine_struck] at h

end

theorem Approving.pinClear (hask : e.ask = .pinClear) :
    Decides p tag e .approved (toLanes .tabChanged (s.tab i).followers) s (s.setTab i { s.tab i with wrongTries := 0 }) := by
  have happly := applyPinClear_eq i (huntAgain p s)
  rw [huntAgain_tab, setTab_huntAgain] at happly
  exact ha.applies_noLine hask rfl rfl happly rfl rfl

theorem Approving.undoTender {k : Nat} {j : ShareNo} {sh : Share} {ds : List Tender} {d : Tender} (hask : e.ask = .undoTender k)
    (hst : (s.tab i).state = .settling) (hsh : s.shareAt (s.tab i) k = some (j, sh)) (htenders : sh.tenders = ds ++ [d]) :
    Decides p tag e .approved (toLanes .tabChanged (s.tab i).followers) s
      (s.setShare j (.held { sh with paid := sh.paid - d.applied, tenders := ds, state := .due })) := by
  have hsh' : (huntAgain p s).shareAt ((huntAgain p s).tab i) k = some (j, sh) := by
    rw [huntAgain_tab, ← hsh]
    cases p <;> rfl
  have happly := applyUndo_eq hsh'
  have hset (y : ShareRecord) : (huntAgain p s).setShare j y = huntAgain p (s.setShare j y) := by cases p <;> rfl
  rw [huntAgain_tab, hset, Share.undo_last htenders] at happly
  refine ha.applies_noLine hask rfl ?_ happly rfl rfl
  simp [askReady, undoReady_eq, hst, hsh, htenders]

/-- An UNDO_TENDER of a share that holds no tender, or of a tab no longer SETTLING (R125). -/
theorem Approving.undoTender_stale {k : Nat} (hask : e.ask = .undoTender k)
    (hnot : (s.tab i).state ≠ .settling ∨ ((s.shareAt (s.tab i) k).elim [] fun q => q.2.tenders) = []) :
    Decides p tag e .stale nobody s s := by
  refine ha.stale_noLine hask rfl ?_
  rw [askReady, undoReady_eq, decide_eq_false_iff_not]
  rintro ⟨h1, h2⟩
  exact hnot.elim (absurd h1) (absurd · h2)

end

/-- `Decides` in the words of the statement. -/
theorem Decides.answered {p : Port} {tag : Nat} {e : Entry} {v : Verdict} {r : Raised} {s u : State} (h : Decides p tag e v r s u) :
    exec (.approve p tag (.fields e.number)) s = .next
      (State.answered p tag 0x2B .ok
        [Field.small e.number, Field.code (askCode e.ask), Field.ident e.tab, Field.code (verdictCode v)]
        (both r (toPort .approvalDone (.lane e.requester)))
        { u with
          approvals := u.approvals.filter fun y => y.number ≠ e.number
          results := u.results.set e.requester (joined (u.resultsOf e.requester)
            [{ number := e.number, ask := e.ask, tab := e.tab, verdict := v, decidedAt := u.clock }]) }) := by
  rw [h, entryGone_joined]
  rfl

/-- Settles O43: kind by kind, then the entries without their preconditions, then a COMP once more with its codes. -/
theorem approveAppliesComp : Obligations.ApproveAppliesComp := by
  refine ⟨fun p tag e i s hready ht he hi => ?_, fun p tag e n i x s hready ht he hask hi hopen h1 hget hst hc => ?_⟩
  · have ha : Approving p tag e i s := ⟨hready, ht, he, hi⟩
    intro t decided toldTab approved rebased
    refine ⟨fun n price x hask h1 hget hst hopen hbase => ?_, fun n m x st place tk hask h1 hget hfired hm hlive hhand => ?_,
      fun hask => (ha.pinClear hask).answered,
      fun k j sh ds d hask hst hsh htenders => (ha.undoTender hask hst hsh htenders).answered, fun n x h1 hget => ?_,
      fun k hask hnot => (ha.undoTender_stale hask hnot).answered⟩
    · have hprice := ha.price (line?_eq.mpr ⟨h1, hget⟩) hask hst hopen ((Tab.newBase_eq t x price).symm ▸ hbase)
      rw [Tab.priceLine_setLine] at hprice
      exact hprice.answered
    · obtain ⟨rfl, -⟩ := findLive_some hlive
      have hx : t.line? n = some x := line?_eq.mpr ⟨h1, hget⟩
      have hk : OnTicket x st place tk s := ⟨hfired, by rw [State.ticketOf, hm]; exact hlive, hhand⟩
      exact ⟨fun other hother hne => (ha.voidFired_shortens hx hask hk hother hne).answered,
        fun hlast => (ha.voidFired_kills hx hask hk hlast).answered⟩
    · have hx : t.line? n = some x := line?_eq.mpr ⟨h1, hget⟩
      refine ⟨fun hask hnot => (ha.stale_line hask rfl hx ?_).answered,
        fun price hask hnot => (ha.stale_line hask rfl hx ?_).answered,
        fun hask hnot => (ha.stale_line hask rfl hx ?_).answered⟩
      · rw [askReady, compReady_eq hx]
        simpa [imp_iff_not_or] using hnot
      · rw [askReady, priceReady_eq price hx, Tab.newBase_eq]
        rcases hnot with h | h | h
        · simp [h]
        · simp [show (s.tab i).state ≠ .opened from h]
        · exact (congrArg _ (decide_eq_false (Nat.not_le.mpr h))).trans (Bool.and_false _)
      · rw [askReady, voidFiredReady_eq hx, State.ticketOf]
        rcases hnot with h | h <;> simp [h]
  · have ha : Approving p tag e i s := ⟨hready, ht, he, hi⟩
    have hcomp := ha.comp (line?_eq.mpr ⟨h1, hget⟩) hask hst hopen hc
    have hfields : decisionFields e .approved = [Field.small e.number, Field.code 1, Field.ident e.tab, Field.code 0] := by
      rw [decisionFields, hask]
      rfl
    rw [Tab.compLine_setLine _ _ _ hc, Decides, hfields] at hcomp
    exact hcomp

end Sys2Proof.Machine
end

section
/-! SUPPORT. The largest-remainder division (R140): its parts position by position, and their exact sum. -/

namespace Sys2Proof.Machine

/-! ### Lists read position by position -/

theorem map_getD_range {α : Type} (l : List α) (d : α) : ((List.range l.length).map fun k => l.getD k d) = l :=
  List.ext_getElem (by simp) fun k _ hk => by simp [hk]

theorem map_eq_map_range {α β : Type} (f : α → β) (l : List α) (d : α) :
    l.map f = (List.range l.length).map fun k => f (l.getD k d) := by
  conv_lhs => rw [← map_getD_range l d, List.map_map]
  rfl

theorem zipIdx_eq_map_range {α : Type} (l : List α) (d : α) : l.zipIdx = (List.range l.length).map fun k => (l.getD k d, k) :=
  List.ext_getElem (by simp) fun k _ hk => by
    have : k < l.length := by simpa using hk
    simp [this]

/-- A position counted where it satisfies a test. -/
theorem sum_indicator (n : Nat) (p : Nat → Prop) [DecidablePred p] :
    ((List.range n).map fun k => if p k then 1 else 0).sum = ((Finset.range n).filter p).card :=
  (Finset.card_filter p (Finset.range n)).symm

theorem card_below {n m : Nat} (h : m ≤ n) : ((Finset.range n).filter (· < m)).card = m := by
  have : (Finset.range n).filter (· < m) = Finset.range m := by
    ext k
    simp only [Finset.mem_filter, Finset.mem_range]
    omega
  rw [this, Finset.card_range]

/-! ### Ranks (R140) -/

section Ranks

variable (rem : Nat → Nat) (n : Nat)

/-- The positions below `n` that rank before one: a greater remainder, or an equal one at a lower position. -/
def rankedBefore (k : Nat) : Finset Nat := (Finset.range n).filter fun j => rem k < rem j ∨ (rem k = rem j ∧ j < k)

/-- How many positions rank before one. -/
def rankAt (k : Nat) : Nat := (rankedBefore rem n k).card

theorem mem_rankedBefore {j k : Nat} : j ∈ rankedBefore rem n k ↔ j < n ∧ (rem k < rem j ∨ (rem k = rem j ∧ j < k)) := by
  simp [rankedBefore]

theorem rankAt_lt {k : Nat} (hk : k < n) : rankAt rem n k < n := by
  have hsub : rankedBefore rem n k ⊂ Finset.range n :=
    (Finset.ssubset_iff_of_subset (Finset.filter_subset _ _)).mpr
      ⟨k, by simpa using hk, fun h => by have := ((mem_rankedBefore rem n).mp h).2; omega⟩
  simpa [rankAt] using Finset.card_lt_card hsub

theorem rankAt_lt_rankAt {j k : Nat} (h : j ∈ rankedBefore rem n k) : rankAt rem n j < rankAt rem n k := by
  have hj := (mem_rankedBefore rem n).mp h
  refine Finset.card_lt_card ((Finset.ssubset_iff_of_subset fun i hi => ?_).mpr ⟨j, h, fun hjj => ?_⟩)
  · have := (mem_rankedBefore rem n).mp hi
    exact (mem_rankedBefore rem n).mpr ⟨this.1, by omega⟩
  · have := ((mem_rankedBefore rem n).mp hjj).2
    omega

theorem rankAt_injOn : Set.InjOn (rankAt rem n) (Finset.range n) := by
  intro j hj k hk h
  rw [Finset.coe_range, Set.mem_Iio] at hj hk
  by_contra hne
  have hor : j ∈ rankedBefore rem n k ∨ k ∈ rankedBefore rem n j := by
    rw [mem_rankedBefore, mem_rankedBefore]
    omega
  rcases hor with hb | hb <;> have := rankAt_lt_rankAt rem n hb <;> omega

/-- The ranks of `n` positions are the numbers below `n`. -/
theorem image_rankAt : (Finset.range n).image (rankAt rem n) = Finset.range n := by
  refine Finset.eq_of_subset_of_card_le (Finset.image_subset_iff.mpr fun k hk => ?_) ?_
  · exact Finset.mem_range.mpr (rankAt_lt rem n (Finset.mem_range.mp hk))
  · rw [Finset.card_image_of_injOn (rankAt_injOn rem n)]

/-- As many positions rank before `m` as `m` says: each rank below `n` is taken once. -/
theorem card_rankAt_lt {m : Nat} (h : m ≤ n) : ((Finset.range n).filter fun k => rankAt rem n k < m).card = m := by
  have himage := Finset.filter_image (s := Finset.range n) (f := rankAt rem n) (p := (· < m))
  rw [image_rankAt] at himage
  have hinj : Set.InjOn (rankAt rem n) ((Finset.range n).filter fun k => rankAt rem n k < m) :=
    (rankAt_injOn rem n).mono (Finset.coe_subset.mpr (Finset.filter_subset _ _))
  rw [← Finset.card_image_of_injOn hinj, ← himage, card_below h]

end Ranks

/-! ### The division (R140) -/

section Division

variable (amount : Nat) (weights : List Nat)

/-- The whole part of the share at a position. -/
def wholeAt (k : Nat) : Nat := amount * weights.getD k 0 / weights.sum

/-- The remainder of the share at a position. -/
def remAt (k : Nat) : Nat := amount * weights.getD k 0 % weights.sum

/-- The sum of the whole parts. -/
def wholeSum : Nat := ((List.range weights.length).map (wholeAt amount weights)).sum

theorem rankOf_eq (k : Nat) (hk : k < weights.length) :
    rankOf (weights.map fun w => remainderOf amount weights.sum w) k = rankAt (remAt amount weights) weights.length k := by
  rw [rankOf, map_eq_map_range _ weights 0, zipIdx_eq_map_range _ 0, List.filter_map, List.length_map, List.length_map,
    List.length_range, rankAt, rankedBefore]
  refine congrArg List.length (List.filter_congr fun j hj => ?_)
  have hj := List.mem_range.mp hj
  simp [hj, hk, remainderOf, remAt]

/-- The division position by position: the whole part, and one more for the shares ranked before the leftover. -/
theorem allocate_eq (h : 0 < weights.sum) :
    allocate amount weights = (List.range weights.length).map fun k =>
      wholeAt amount weights k
        + if rankAt (remAt amount weights) weights.length k < amount - wholeSum amount weights then 1 else 0 := by
  have hwholes : (weights.map fun w => amount * w / weights.sum) = (List.range weights.length).map (wholeAt amount weights) :=
    map_eq_map_range _ weights 0
  rw [allocate, if_neg (by omega), hwholes]
  dsimp only
  rw [zipIdx_eq_map_range _ 0, List.map_map, List.length_map, List.length_range]
  refine List.map_congr_left fun k hk => ?_
  have hk := List.mem_range.mp hk
  simp only [Function.comp_apply, rankOf_eq amount weights k hk, List.getD_eq_getElem?_getD, List.getElem?_map,
    List.getElem?_range hk, Option.map_some, Option.getD_some]
  rfl

theorem allocate_length : (allocate amount weights).length = weights.length := by
  unfold allocate
  dsimp only
  split <;> simp

/-- With every weight 0 every share gets 0. -/
theorem allocate_zero (h : weights.sum = 0) : ∀ x ∈ allocate amount weights, x = 0 := by
  intro x hx
  rw [allocate, if_pos h] at hx
  obtain ⟨w, -, rfl⟩ := List.mem_map.mp hx
  rfl

/-- The whole parts and the remainders make up the amount. -/
theorem wholeSum_mul_add :
    wholeSum amount weights * weights.sum + ((List.range weights.length).map (remAt amount weights)).sum
      = amount * weights.sum := by
  have hweights : ((List.range weights.length).map fun k => amount * weights.getD k 0).sum = amount * weights.sum := by
    rw [List.sum_map_mul_left, map_getD_range]
  rw [wholeSum, ← List.sum_map_mul_right, ← List.sum_map_add, ← hweights]
  exact congrArg List.sum (List.map_congr_left fun k _ => by rw [mul_comm]; exact Nat.div_add_mod _ _)

variable {weights}

theorem wholeSum_le (h : 0 < weights.sum) : wholeSum amount weights ≤ amount :=
  Nat.le_of_mul_le_mul_right (by have := wholeSum_mul_add amount weights; omega) h

/-- The leftover is below the number of shares, as every remainder is below the sum of the weights. -/
theorem leftover_lt (h : 0 < weights.sum) : amount - wholeSum amount weights < weights.length := by
  have hpos : 0 < weights.length := List.length_pos_iff.mpr fun e => by simp [e] at h
  have hrem : ((List.range weights.length).map (remAt amount weights)).sum < weights.length * weights.sum := by
    have := List.sum_lt_sum_of_ne_nil (l := List.range weights.length) (by simpa using hpos.ne') (remAt amount weights)
      (fun _ => weights.sum) (fun k _ => Nat.mod_lt _ h)
    simpa using this
  have hsum := wholeSum_mul_add amount weights
  refine Nat.lt_of_mul_lt_mul_right (a := weights.sum) ?_
  rw [Nat.sub_mul]
  omega

/-- The parts sum to the amount. -/
theorem allocate_sum (h : 0 < weights.sum) : (allocate amount weights).sum = amount := by
  rw [allocate_eq amount weights h, List.sum_map_add, sum_indicator, card_rankAt_lt _ _ (leftover_lt amount h).le]
  exact Nat.add_sub_of_le (wholeSum_le amount h)

end Division

/-- Settles O48: the parts as `allocate_eq` has them; their sum by the count of the ranks below the leftover. -/
theorem proportionalDivision : Obligations.ProportionalDivision := by
  intro amount weights
  refine ⟨allocate_length amount weights, allocate_zero amount weights, fun h => ?_⟩
  refine ⟨wholeSum_le amount h, leftover_lt amount h, fun k hk => ?_, allocate_sum amount h⟩
  rw [allocate_eq amount weights h]
  simp only [List.getD_eq_getElem?_getD, List.getElem?_map, List.getElem?_range hk, Option.map_some, Option.getD_some]
  rfl

end Sys2Proof.Machine
end

section
/-! SUPPORT. The figures of a split (R136 to R142): each figure of the tab is the sum of its parts over the shares. -/

namespace Sys2Proof.Machine

theorem map_zipIdx_fst {α β : Type} (f : α → β) (l : List α) : (l.zipIdx.map fun q => f q.1) = l.map f := by
  conv_rhs => rw [← List.zipIdx_map_fst 0 l, List.map_map]
  rfl

theorem map_zipIdx_snd {α β : Type} (f : Nat → β) (l : List α) :
    (l.zipIdx.map fun q => f q.2) = (List.range l.length).map f := by
  rw [List.range_eq_range', ← List.zipIdx_map_snd 0 l, List.map_map]
  rfl

/-! ### The shares formed (R136, R137) -/

theorem seatOk_iff {n : Nat} : seatOk n = true ↔ 1 ≤ n ∧ n ≤ 24 := by simp [seatOk]

theorem mem_allSeats {n : Nat} : n ∈ allSeats ↔ seatOk n = true := by
  rw [seatOk_iff, allSeats, List.mem_range'_1]
  omega

theorem nodup_shareLeads (map : List (Nat × Nat)) (lines : List LineInput) : (shareLeads map lines).Nodup :=
  List.Nodup.filter _ List.nodup_range'

/-- A seat map that passes its checks leads every seat to a seat (R135). -/
theorem seatOk_leadOf {map : List (Nat × Nat)} (hm : mapOk map = true) {n : Nat} (hn : seatOk n = true) :
    seatOk (leadOf map n) = true := by
  unfold leadOf
  split
  · rename_i q hq
    simp only [mapOk, Bool.and_eq_true, List.all_eq_true] at hm
    obtain ⟨⟨⟨-, hseats⟩, -⟩, -⟩ := hm
    exact (hseats q (List.mem_of_find?_eq_some hq)).1.2
  · exact hn

theorem mem_seatedSeats {lines : List LineInput} {n : Nat} :
    n ∈ seatedSeats lines ↔ seatOk n = true ∧ ∃ x ∈ lines, x.seat = n := by
  simp [seatedSeats, mem_allSeats]

/-- The lead of a line's seat is one of the leads (R136). -/
theorem leadOf_mem_shareLeads {map : List (Nat × Nat)} (hm : mapOk map = true) {lines : List LineInput} {x : LineInput}
    (hx : x ∈ lines) (hs : seatOk x.seat = true) : leadOf map x.seat ∈ shareLeads map lines := by
  simp only [shareLeads, List.mem_filter, mem_allSeats, seatOk_leadOf hm hs, List.any_eq_true, decide_eq_true_eq, true_and]
  exact ⟨x.seat, mem_seatedSeats.mpr ⟨hs, x, hx, rfl⟩, rfl⟩

/-- The leads of the shares by seat: those of the seated seats, or of the one share there is with none (R136). -/
theorem leads_bySeat (map : List (Nat × Nat)) (lines : List LineInput) :
    (shareShapes (.bySeat map) lines).map ShareShape.lead
      = if shareLeads map lines = [] then [0] else shareLeads map lines := by
  unfold shareShapes
  dsimp only
  split
  · rename_i h
    simp [h]
  · rename_i h
    rw [if_neg h, List.map_map]
    exact List.map_id' _

/-- The number of shares by seat: one for each lead, and one with no lead (R136). -/
theorem shareCount_bySeat (map : List (Nat × Nat)) (lines : List LineInput) :
    shareCount (.bySeat map) lines = max 1 (shareLeads map lines).length := by
  have h := congrArg List.length (leads_bySeat map lines)
  rw [List.length_map] at h
  rw [shareCount, h]
  split
  · simp [*]
  · have := List.length_pos_iff.mpr ‹_›
    omega

theorem shareCount_even (n : Nat) (lines : List LineInput) : shareCount (.even n) lines = n := by
  simp [shareCount, shareShapes]

/-- A share definition that passes its checks (R134). -/
def ShareDef.ok : ShareDef → Prop
  | .even n => 1 ≤ n ∧ n ≤ 24
  | .bySeat map => mapOk map = true

theorem shareCount_pos {d : ShareDef} (hd : d.ok) (lines : List LineInput) : 0 < shareCount d lines := by
  cases d with
  | even n => rw [shareCount_even]; exact hd.1
  | bySeat map => rw [shareCount_bySeat]; omega

/-! ### Every line counted once (R139) -/

/-- The leads of the shares, in share-index order. -/
def leadsOf (d : ShareDef) (lines : List LineInput) : List Nat := (shareShapes d lines).map ShareShape.lead

/-- A line is shared by all, or one share alone pays it (R136, R137). -/
theorem line_paid_once {d : ShareDef} (hd : d.ok) {lines : List LineInput} {x : LineInput} (hx : x ∈ lines) :
    (leadsOf d lines).countP (fun t => paidBy d t x) + (if sharedLine d x then 1 else 0) = 1 := by
  cases d with
  | even n => simp [paidBy, sharedLine]
  | bySeat map =>
    cases hs : seatOk x.seat with
    | false => simp [paidBy, sharedLine, hs]
    | true =>
      have hmem := leadOf_mem_shareLeads hd hx hs
      have hcount := List.count_eq_one_of_mem (nodup_shareLeads map lines) hmem
      have hpaid : (leadsOf (.bySeat map) lines).countP (fun t => paidBy (.bySeat map) t x) = 1 := by
        rw [leadsOf, leads_bySeat, if_neg (List.ne_nil_of_mem hmem), ← hcount]
        refine List.countP_congr fun t _ => ?_
        simp only [paidBy, hs, Bool.true_and, decide_eq_true_eq, beq_iff_eq]
        exact eq_comm
      simp [hpaid, sharedLine, hs]

/-- What one line adds over shares that each pay it or do not. -/
theorem sum_ite_eq_countP_mul (p : Nat → Bool) (a : Nat) (ts : List Nat) :
    (ts.map fun t => if p t then a else 0).sum = ts.countP p * a := by
  induction ts with
  | nil => simp
  | cons t ts ih => cases h : p t <;> simp [h, ih, Nat.add_mul, Nat.add_comm]

theorem sumAmounts_eq (which : LineInput → Bool) (lines : List LineInput) :
    sumAmounts which lines = (lines.map fun x => if which x then x.amount else 0).sum := by
  unfold sumAmounts
  induction lines with
  | nil => rfl
  | cons x xs ih => cases h : which x <;> simp [h, ih]

/-- What the shares pay directly in a class, and what they share of it, is the class base (R136 to R139). -/
theorem sum_paid_add_shared {d : ShareDef} (hd : d.ok) (lines : List LineInput) (c : TaxClass) :
    ((leadsOf d lines).map fun t => sumAmounts (fun x => x.taxClass = c && paidBy d t x) lines).sum
      + sumAmounts (fun x => x.taxClass = c && sharedLine d x) lines = classBase lines c := by
  have hswap (f : Nat → LineInput → Nat) :
      ((leadsOf d lines).map fun t => (lines.map (f t)).sum).sum
        = (lines.map fun x => ((leadsOf d lines).map fun t => f t x).sum).sum := by
    simpa using Multiset.sum_map_sum_map (leadsOf d lines : Multiset Nat) (lines : Multiset LineInput) (f := f)
  simp only [sumAmounts_eq, classBase]
  rw [hswap, ← List.sum_map_add]
  refine congrArg List.sum (List.map_congr_left fun x hx => ?_)
  have honce := line_paid_once hd hx
  by_cases h : x.taxClass = c
  · have hshared : (if sharedLine d x then x.amount else 0) = (if sharedLine d x then 1 else 0) * x.amount := by
      split <;> simp
    simp only [h, decide_true, Bool.true_and, if_true, sum_ite_eq_countP_mul]
    rw [hshared, ← Nat.add_mul, honce, Nat.one_mul]
  · simp [h]

/-! ### The parts of each figure (R139 to R142) -/

/-- The equal parts of an amount sum to it (R139). -/
theorem sum_equalPart (amount : Nat) {n : Nat} (hn : 0 < n) : ((List.range n).map (equalPart amount n)).sum = amount := by
  unfold equalPart
  rw [List.sum_map_add, sum_indicator, card_below (Nat.mod_lt amount hn).le]
  simpa using Nat.div_add_mod amount n

theorem sum_shareClassBases {d : ShareDef} (hd : d.ok) (lines : List LineInput) (c : TaxClass) :
    (shareClassBases d lines c).sum = classBase lines c := by
  have hequal := sum_equalPart (sumAmounts (fun x => x.taxClass = c && sharedLine d x) lines) (shareCount_pos hd lines)
  rw [← sum_paid_add_shared hd lines c]
  unfold shareClassBases
  dsimp only
  rw [List.sum_map_add]
  congr 1
  · rw [leadsOf, List.map_map]
    exact congrArg List.sum
      (map_zipIdx_fst (fun q : ShareShape => sumAmounts (fun x => x.taxClass = c && paidBy d q.lead x) lines) _)
  · rw [map_zipIdx_snd]
    exact hequal

theorem length_shareClassBases (d : ShareDef) (lines : List LineInput) (c : TaxClass) :
    (shareClassBases d lines c).length = shareCount d lines := by
  simp [shareClassBases, shareCount]

/-- The parts of an amount sum to it, or there is nothing to divide (R140). -/
theorem sum_allocate {amount : Nat} {weights : List Nat} (h : weights.sum = 0 → amount = 0) :
    (allocate amount weights).sum = amount := by
  rcases Nat.eq_zero_or_pos weights.sum with hz | hp
  · rw [List.sum_eq_zero (allocate_zero amount weights hz), h hz]
  · exact allocate_sum amount hp

theorem applyRate_zero (rate : Nat) : applyRate 0 rate = 0 := by simp [applyRate]

theorem sum_shareClassTaxes {d : ShareDef} (hd : d.ok) (inp : SplitInputs) (c : TaxClass) :
    (shareClassTaxes d inp c).sum = classTax inp c := by
  refine sum_allocate fun h => ?_
  rw [sum_shareClassBases hd] at h
  rw [classTax, h, applyRate_zero]

theorem length_shareClassTaxes (d : ShareDef) (inp : SplitInputs) (c : TaxClass) :
    (shareClassTaxes d inp c).length = shareCount d inp.lines := by
  rw [shareClassTaxes, allocate_length, length_shareClassBases]

theorem sum_getD_range {l : List Nat} {n : Nat} (h : l.length = n) : ((List.range n).map fun k => l.getD k 0).sum = l.sum := by
  rw [← h, map_getD_range]

theorem sum_shareBases {d : ShareDef} (hd : d.ok) (lines : List LineInput) : (shareBases d lines).sum = tabBase lines := by
  have hsum (c : TaxClass) := (sum_getD_range (length_shareClassBases d lines c)).trans (sum_shareClassBases hd lines c)
  unfold shareBases tabBase sumClasses
  rw [List.sum_map_add, List.sum_map_add, List.sum_map_add, ← hsum 0, ← hsum 1, ← hsum 2, ← hsum 3]
  rfl

theorem sum_serviceParts {d : ShareDef} (hd : d.ok) (inp : SplitInputs) : (serviceParts d inp).sum = serviceCharge inp := by
  refine sum_allocate fun h => ?_
  rw [sum_shareBases hd] at h
  rw [serviceCharge, h, applyRate_zero]

theorem length_serviceParts (d : ShareDef) (inp : SplitInputs) : (serviceParts d inp).length = shareCount d inp.lines := by
  rw [serviceParts, allocate_length, shareBases, List.length_map, List.length_range, shareCount]

/-! ### The figures (R142, R145) -/

theorem length_splitFigures (d : ShareDef) (inp : SplitInputs) : (splitFigures d inp).length = shareCount d inp.lines := by
  simp [splitFigures, shareCount]

/-- A figure of the shares that is read from a list by position, in share-index order. -/
theorem sum_figure {d : ShareDef} {inp : SplitInputs} {f : ShareFigures → Nat} {l : List Nat}
    (hl : l.length = shareCount d inp.lines)
    (hf : (splitFigures d inp).map f = (shareShapes d inp.lines).zipIdx.map fun p => l.getD p.2 0) :
    ((splitFigures d inp).map f).sum = l.sum := by
  rw [hf, map_zipIdx_snd fun k => l.getD k 0]
  exact sum_getD_range hl

theorem sum_figures_bases {d : ShareDef} (hd : d.ok) (inp : SplitInputs) (c : TaxClass) :
    ((splitFigures d inp).map fun g => g.bases.get c).sum = (tabTotals inp).bases.get c := by
  rw [sum_figure (length_shareClassBases d inp.lines c) (by simp [splitFigures, Function.comp_def]), sum_shareClassBases hd]
  exact (tableOf_get _ c).symm

theorem sum_figures_taxes {d : ShareDef} (hd : d.ok) (inp : SplitInputs) (c : TaxClass) :
    ((splitFigures d inp).map fun g => g.taxes.get c).sum = (tabTotals inp).taxes.get c := by
  rw [sum_figure (length_shareClassTaxes d inp c) (by simp [splitFigures, Function.comp_def]), sum_shareClassTaxes hd]
  exact (tableOf_get _ c).symm

theorem sum_figures_service {d : ShareDef} (hd : d.ok) (inp : SplitInputs) :
    ((splitFigures d inp).map fun g => g.service).sum = (tabTotals inp).service := by
  rw [sum_figure (length_serviceParts d inp) (by simp [splitFigures, Function.comp_def]), sum_serviceParts hd]
  rfl

/-- A due is its share's bases, taxes and service part added up (R142). -/
theorem figures_due {d : ShareDef} {inp : SplitInputs} {g : ShareFigures} (hg : g ∈ splitFigures d inp) :
    g.due = sumClasses g.bases.get + sumClasses g.taxes.get + g.service := by
  obtain ⟨p, -, rfl⟩ := List.mem_map.mp hg
  simp only [sumClasses, tableOf_get]

/-- The dues sum to the tab total (R142). -/
theorem sum_figures_due {d : ShareDef} (hd : d.ok) (inp : SplitInputs) :
    ((splitFigures d inp).map fun g => g.due).sum = (tabTotals inp).total := by
  rw [List.map_congr_left fun g hg => figures_due hg]
  simp only [sumClasses, List.sum_map_add, sum_figures_bases hd, sum_figures_taxes hd, sum_figures_service hd]
  simp only [tabTotals, tabTotal, tabBase, sumClasses, tableOf_get]

/-- Settles O47: each figure's parts by `sum_figure`, and the dues by the figures they add up. -/
theorem splitDuesSumToTotal : Obligations.SplitDuesSumToTotal := by
  intro d inp h
  have hd : d.ok := by cases d <;> exact h
  refine ⟨length_splitFigures d inp, fun g hg => figures_due hg, sum_figures_bases hd inp, sum_figures_taxes hd inp,
    sum_figures_service hd inp, sum_figures_due hd inp, fun g hg => ?_⟩
  rw [← sum_figures_due hd inp]
  exact List.le_sum_of_mem (List.mem_map_of_mem hg)

end Sys2Proof.Machine
end

section
/-! SUPPORT. SPLIT accepted (R133 to R136, R147 to R149): the share definition read, the request's checks passed, and what the
engine is handed. -/

namespace Sys2Proof.Machine

/-! ### The share definition (R134 to R136) -/

theorem mapOk_iff {map : List (Nat × Nat)} :
    mapOk map = true ↔ map.length ≤ 24
      ∧ (∀ q ∈ map, 1 ≤ q.1 ∧ q.1 ≤ 24 ∧ 1 ≤ q.2 ∧ q.2 ≤ 24 ∧ q.1 ≠ q.2 ∧ q.2 ∉ map.map Prod.fst)
      ∧ (map.map Prod.fst).Nodup := by
  simp only [mapOk, Bool.and_eq_true, List.all_eq_true, decide_eq_true_eq, seatOk_iff, Bool.not_eq_true', List.contains_eq_mem,
    decide_eq_false_iff_not]
  constructor
  · rintro ⟨⟨⟨hlen, hseats⟩, hnodup⟩, hleads⟩
    refine ⟨hlen, fun q hq => ?_, hnodup⟩
    obtain ⟨⟨⟨h1, h2⟩, h3, h4⟩, hne⟩ := hseats q hq
    exact ⟨h1, h2, h3, h4, hne, hleads q hq⟩
  · rintro ⟨hlen, hseats, hnodup⟩
    refine ⟨⟨⟨hlen, fun q hq => ?_⟩, hnodup⟩, fun q hq => ?_⟩
    · obtain ⟨h1, h2, h3, h4, hne, -⟩ := hseats q hq
      exact ⟨⟨⟨h1, h2⟩, h3, h4⟩, hne⟩
    · obtain ⟨-, -, -, -, -, hlead⟩ := hseats q hq
      exact hlead

theorem leadOf_eq (map : List (Nat × Nat)) (seat : Nat) :
    leadOf map seat = ((map.find? fun q => q.1 = seat).map Prod.snd).getD seat := by
  unfold leadOf
  split <;> simp [*]

/-- The leads of the seats on a tab's lines that are not VOIDED (R133, R136). -/
theorem shareLeads_lineInputs (map : List (Nat × Nat)) (t : Tab) :
    shareLeads map (lineInputs t) = (List.range' 1 24).filter fun n =>
      t.lines.any fun x => x.state ≠ .voided && 1 ≤ x.seat && x.seat ≤ 24
        && ((map.find? fun q => q.1 = x.seat).map Prod.snd).getD x.seat = n := by
  refine List.filter_congr fun n _ => Bool.eq_iff_iff.mpr ?_
  simp only [List.any_eq_true, mem_seatedSeats, seatOk_iff, decide_eq_true_eq, Bool.and_eq_true, lineInputs, List.mem_map,
    List.mem_filter, ← leadOf_eq]
  constructor
  · rintro ⟨seat, ⟨⟨h1, h2⟩, -, ⟨x, ⟨hx, hst⟩, rfl⟩, rfl⟩, rfl⟩
    exact ⟨x, hx, ⟨⟨hst, h1⟩, h2⟩, rfl⟩
  · rintro ⟨x, hx, ⟨⟨hst, h1⟩, h2⟩, rfl⟩
    exact ⟨x.seat, ⟨⟨h1, h2⟩, _, ⟨x, ⟨hx, hst⟩, rfl⟩, rfl⟩, rfl⟩

theorem shareDef?_even {n : Nat} {map : Option (List (Nat × Nat))} (h1 : 1 ≤ n) (h2 : n ≤ 24) (hmap : map.getD [] = []) :
    shareDef? 0 (some n) map = some (.even n) :=
  if_pos ⟨h1, h2, hmap⟩

theorem shareDef?_bySeat {map : Option (List (Nat × Nat))} (h : mapOk (map.getD []) = true) :
    shareDef? 1 none map = some (.bySeat (map.getD [])) :=
  if_pos h

/-! ### The checks passed (R147) -/

/-- A till's request on a tab it names goes on with the tab's claim restarted (R161). -/
theorem withTab_naming {l : Lane} {m : Nat} {i : Slot} {s : State} (hi : s.findTab m = some i) (k : Slot → State → Answer)
    (missing : List Field) : withTab (.lane l) m (huntAgain (.lane l) s) k missing = k i (s.naming l i) := by
  simp only [withTab_eq, huntAgain_findTab, hi, huntAgain_tab, setTab_huntAgain, State.naming]

theorem changesMoney_noLine {ask : Ask} (h : askLine ask = none) : changesMoney ask = false := by
  cases ask <;> simp_all [askLine, changesMoney]

/-- A SPLIT on an OPEN tab with no ENTERED line and no money-changing approval, of a definition that passes its checks, with
records and room at the engine, is accepted (R147, R148). -/
theorem split_accepts {l : Lane} {tag : Nat} {f : SplitFields} {d : ShareDef} {n : Nat} {i : Slot} {s : State}
    (h : tillReady l tag s = true) (hi : s.findTab f.tab = some i) (hpin : (s.tab i).pin = none ∨ l ∈ (s.tab i).unlocked)
    (hopen : (s.tab i).state = .opened) (hnone : ∀ x ∈ (s.tab i).lines, x.state ≠ .entered)
    (hasks : ∀ e ∈ s.approvals, e.tab = f.tab → askLine e.ask = none) (hd : shareDef? f.mode f.count f.map = some d)
    (hn : shareCount d (lineInputs (s.tab i)) = n) (hfree : n ≤ s.freeShareCount)
    (hroom : s.computing ≠ none → s.waiting.length < 3) :
    split tag l f (huntAgain (.lane l) s) = (acceptSplit l tag i d n (s.naming l i), none) := by
  obtain ⟨-, -, -, hnumber⟩ := findTab_some hi
  have hunlocked := (naming_unlocked h i).mpr hpin
  have hheld : ((s.tab i).lines.filter fun x => x.state = .entered) = [] := by simpa using hnone
  have hasked : (s.approvals.any fun e => e.tab = (s.tab i).number && changesMoney e.ask) = false := by
    rw [List.any_eq_false]
    intro e he
    by_cases ht : e.tab = f.tab
    · simp [changesMoney_noLine (hasks e he ht)]
    · simp [hnumber, ht]
  have hinputs : lineInputs ((s.tab i).named (.lane l)) = lineInputs (s.tab i) := by simp [lineInputs]
  have hfree' : ¬(s.naming l i).freeShareCount < n := Nat.not_lt.mpr hfree
  have hroom' : ¬((s.naming l i).computing.isSome ∧ Config.engineWaiting ≤ (s.naming l i).waiting.length) := fun ⟨hc, hw⟩ =>
    Nat.not_lt.mpr hw (hroom (Option.isSome_iff_ne_none.mp hc))
  have happrovals : (s.naming l i).approvals = s.approvals := rfl
  rw [split, withTab_naming hi]
  simp only [naming_tab, hunlocked, Tab.named_state, hopen, Tab.named_lines, hheld, Tab.named_number, happrovals, hasked, hd,
    hinputs, hn, hfree', hroom', Bool.not_true, Bool.false_eq_true, if_false, ne_eq, not_true_eq_false, List.length_nil]

/-! ### The records reserved (R148, R153) -/

theorem pickShares_length {n : Nat} {s : State} (h : n ≤ s.freeShareCount) : (s.pickShares n).length = n := by
  rw [State.pickShares, List.length_take]
  exact Nat.min_eq_left h

theorem pickShares_nodup (n : Nat) (s : State) : (s.pickShares n).Nodup :=
  ((List.nodup_finRange 384).filter _).sublist (List.take_sublist n _)

theorem pickShares_free {n : Nat} {s : State} {j : ShareNo} (h : j ∈ s.pickShares n) : s.shares.get j = .free := by
  simpa using (List.mem_filter.mp (List.mem_of_mem_take h)).2

/-! ### The request in the engine's hands (R148, R149) -/

/-- What an accepted SPLIT leaves before the engine has it: the tab SETTLING and its records reserved (R148). -/
def State.splitReserved (l : Lane) (i : Slot) (d : ShareDef) (n : Nat) (s : State) : State :=
  (reserveShares (s.pickShares n) (s.tab i).number s).setTab i ((s.tab i).inSplit l d n (s.pickShares n))

/-- A request as the engine is handed it (R149). -/
def Tab.jobOf (t : Tab) (d : ShareDef) (n : Nat) : SplitJob := { tab := t.number, shape := d, count := n }

theorem Tab.named_jobOf (p : Port) (t : Tab) (d : ShareDef) (n : Nat) : (t.named p).jobOf d n = t.jobOf d n := by
  simp [Tab.jobOf]

/-- A port with its SPLIT outstanding (R148). -/
def PortEntry.awaiting (tag : Nat) (e : PortEntry) : PortEntry :=
  { e with outstanding := some (tag, .split), receiver := .hunting }

/-- A SPLIT accepted (R148): its records reserved, the engine as it is left, and the request outstanding at its port. -/
def State.splitAccepted (l : Lane) (tag : Nat) (i : Slot) (d : ShareDef) (n : Nat) (computing : Option Computation)
    (waiting : List SplitJob) (s : State) : State :=
  { s.splitReserved l i d n with
    computing := computing, waiting := waiting, ports := s.ports.set l ((s.port l).awaiting tag) }

theorem Tab.named_inSplit (p : Port) (t : Tab) (l : Lane) (d : ShareDef) (n : Nat) (refs : List ShareNo) :
    (t.named p).inSplit l d n refs = t.inSplit l d n refs := by
  unfold Tab.named
  split <;> rfl

theorem naming_splitReserved (l : Lane) (i : Slot) (d : ShareDef) (n : Nat) (s : State) :
    (s.naming l i).splitReserved l i d n = huntAgain (.lane l) (s.splitReserved l i d n) := by
  have hset := naming_setTab l i (reserveShares (s.pickShares n) (s.tab i).number s) ((s.tab i).inSplit l d n (s.pickShares n))
  simp only [State.splitReserved, naming_tab, Tab.named_number, Tab.named_inSplit]
  exact hset

theorem takeUp_computing {c : Computation} {s : State} (h : s.computing = some c) : takeUp s = s := by simp [takeUp, h]

theorem takeUp_nothing {s : State} (h : s.waiting = []) : takeUp s = s := by simp [takeUp, h]

/-- A request behind a computation joins the end of the waiting list (R149). -/
theorem handToEngine_busy {job : SplitJob} {c : Computation} {s : State} (h : s.computing = some c) :
    handToEngine job (takeUp s) = { s with computing := some c, waiting := s.waiting ++ [job] } := by
  simp only [takeUp_computing h, handToEngine, h]

/-- A computation begun on a job whose tab is held (R133, R149). -/
theorem beginJob_eq {job : SplitJob} {i : Slot} {s : State} (hi : s.findTab job.tab = some i) :
    beginJob job s
      = { s with computing := some { job := job, refs := (s.tab i).shareRefs, inputs := readInputs s (s.tab i) } } := by
  simp only [beginJob, State.tabNumbered, hi]

/-- A request that finds the engine idle and none waiting begins at once, with the inputs as they stand (R133, R149). -/
theorem handToEngine_idle {job : SplitJob} {i : Slot} {s : State} (h : s.computing = none) (hw : s.waiting = [])
    (hi : s.findTab job.tab = some i) :
    handToEngine job (takeUp s)
      = { s with
          computing := some { job := job, refs := (s.tab i).shareRefs, inputs := readInputs s (s.tab i) }, waiting := [] } := by
  simp only [takeUp_nothing hw, handToEngine, h, beginJob_eq hi]
  rw [← hw]

/-- A tab whose split is accepted is found as before. -/
theorem findTab_splitReserved {i : Slot} {m : Nat} (l : Lane) (d : ShareDef) (n : Nat) {s : State} (hi : s.findTab m = some i) :
    (s.splitReserved l i d n).findTab m = some i := by
  obtain ⟨-, -, hheld, hnumber⟩ := findTab_some hi
  refine (findTab_congr fun j => ?_).trans hi
  have htab : (s.splitReserved l i d n).tab j = if j = i then (s.tab i).inSplit l d n (s.pickShares n) else s.tab j :=
    State.setTab_tab _ i j _
  rw [State.bears, State.bears, htab]
  split
  · subst_vars
    simp [Tab.inSplit, hheld]
  · rfl

/-- A SPLIT accepted, for the state in which the engine has the request (R148). -/
theorem acceptSplit_eq {l : Lane} (tag : Nat) {i : Slot} {d : ShareDef} {n : Nat} {s v : State}
    (hv : handToEngine ((s.tab i).jobOf d n) (takeUp (s.splitReserved l i d n)) = v) :
    acceptSplit l tag i d n s = touch i (v.setPort l { v.port l with outstanding := some (tag, .split) }) := by
  subst hv
  rfl

/-- What a SPLIT that is accepted answers, for the engine as its hand-over leaves it: the reply is withheld, and TAB_CHANGED goes
to the tab's followers (R148). -/
theorem exec_split {l : Lane} {tag : Nat} {f : SplitFields} {d : ShareDef} {n : Nat} {i : Slot} {computing : Option Computation}
    {waiting : List SplitJob} {s : State} (h : tillReady l tag s = true)
    (hsplit : split tag l f (huntAgain (.lane l) s) = (acceptSplit l tag i d n (s.naming l i), none))
    (hengine : handToEngine ((s.tab i).jobOf d n) (takeUp (huntAgain (.lane l) (s.splitReserved l i d n)))
      = { huntAgain (.lane l) (s.splitReserved l i d n) with computing := computing, waiting := waiting }) :
    exec (.split (.lane l) tag (.fields f)) s
      = .next ((s.splitAccepted l tag i d n computing waiting).told (toLanes .tabChanged (s.tab i).followers)) := by
  let w : State := { s.splitReserved l i d n with computing := computing, waiting := waiting }
  have haccept : acceptSplit l tag i d n (s.naming l i)
      = touch i ((huntAgain (.lane l) w).setPort l
          { (huntAgain (.lane l) w).port l with outstanding := some (tag, .split) }) := by
    refine acceptSplit_eq tag ?_
    rw [naming_tab, Tab.named_jobOf, naming_splitReserved]
    exact hengine
  have hport : (huntAgain (.lane l) w).setPort l { (huntAgain (.lane l) w).port l with outstanding := some (tag, .split) }
      = s.splitAccepted l tag i d n computing waiting := by
    rw [huntAgain_port, if_pos rfl]
    exact State.setPort_setPort w l _ _
  have htab : (s.splitAccepted l tag i d n computing waiting).tab i = (s.tab i).inSplit l d n (s.pickShares n) :=
    get_set_self s.tabs i _
  have hpending (m : Lane) : ((huntAgain (.lane l) s).port m).pendingSet
      = ((s.splitAccepted l tag i d n computing waiting).port m).pendingSet := by
    rw [huntAgain_pendingSet]
    have hm := State.setPort_port s l m ((s.port l).awaiting tag)
    refine Eq.trans ?_ (congrArg PortEntry.pendingSet hm).symm
    split <;> subst_vars <;> rfl
  refine (serve_till (block := _) h rfl).trans (congrArg Host.Outcome.next ?_)
  show composeNotices none (huntAgain (.lane l) s) (deliver (.lane l) tag _ (split tag l f (huntAgain (.lane l) s))) = _
  rw [hsplit, deliver, haccept, hport, touch_eq, htab]
  exact composeNotices_raised _ _ _ hpending

/-- A share definition that passes its checks is read, and its shares are counted (R134 to R136). -/
theorem shareDef?_some {f : SplitFields} {d : ShareDef} {n : Nat} {t : Tab}
    (h : (f.mode = 0 ∧ f.count = some n ∧ 1 ≤ n ∧ n ≤ 24 ∧ f.map.getD [] = [] ∧ d = .even n)
      ∨ (f.mode = 1 ∧ f.count = none ∧ mapOk (f.map.getD []) = true ∧ d = .bySeat (f.map.getD [])
        ∧ n = max 1 (shareLeads (f.map.getD []) (lineInputs t)).length)) :
    shareDef? f.mode f.count f.map = some d ∧ shareCount d (lineInputs t) = n := by
  rcases h with ⟨hmode, hcount, h1, h2, hmap, rfl⟩ | ⟨hmode, hcount, hmap, rfl, rfl⟩
  · rw [hmode, hcount]
    exact ⟨shareDef?_even h1 h2 hmap, shareCount_even n _⟩
  · rw [hmode, hcount]
    exact ⟨shareDef?_bySeat hmap, shareCount_bySeat _ _⟩

/-- Settles O45: the checks passed, the request joins the waiting list or begins at once; the second clause follows from the
first. -/
theorem splitIsAccepted : Obligations.SplitIsAccepted := by
  refine (and_iff_left_of_imp fun hfirst => ?_).mpr ?_
  · intro l tag num n i c s hready hi hpin hopen hnone hasks h1 h24 hfree hc hroom
    have hline : ∀ e ∈ s.approvals, e.tab = num → askLine e.ask = none := fun e he ht => by
      rcases hasks e he ht with h | ⟨k, h⟩ <;> rw [h] <;> rfl
    obtain ⟨refs, hlen, hnodup, hrefs, hbusy, -⟩ := hfirst l tag ⟨num, 0, some n, none⟩ (.even n) n i s hready hi hpin hopen hnone
      hline (.inl ⟨rfl, rfl, h1, h24, rfl, rfl⟩) hfree
    exact ⟨refs, hlen, hnodup, hrefs, hbusy (by simp [hc]) hroom⟩
  · intro l tag f d n i s hready hi hpin hopen hnone hasks hdef hfree
    obtain ⟨hd, hn⟩ := shareDef?_some (f := f) (d := d) (n := n) (t := s.tab i) (by
      rw [shareLeads_lineInputs, mapOk_iff]
      simpa only [and_assoc] using hdef)
    have hsplit (hroom : s.computing ≠ none → s.waiting.length < 3) :=
      split_accepts (tag := tag) hready hi hpin hopen hnone hasks hd hn hfree hroom
    obtain ⟨num, mode, count, map⟩ := f
    obtain ⟨-, -, -, hnumber⟩ := findTab_some hi
    obtain rfl : (s.tab i).number = num := hnumber
    refine ⟨s.pickShares n, pickShares_length hfree, pickShares_nodup n s, fun j hj => pickShares_free hj, fun hbusy hroom => ?_,
      fun hidle hwaiting => ?_⟩
    · obtain ⟨c, hc⟩ := Option.ne_none_iff_exists'.mp hbusy
      rw [hc]
      exact exec_split hready (hsplit fun _ => hroom) (handToEngine_busy (s := huntAgain (.lane l) (s.splitReserved l i d n)) hc)
    · have hfound : (huntAgain (.lane l) (s.splitReserved l i d n)).findTab (s.tab i).number = some i :=
        (huntAgain_findTab _ _ _).trans (findTab_splitReserved l d n hi)
      have hbegins := handToEngine_idle (job := (s.tab i).jobOf d n) (s := huntAgain (.lane l) (s.splitReserved l i d n)) hidle
        hwaiting hfound
      have htab : (huntAgain (.lane l) (s.splitReserved l i d n)).tab i = (s.tab i).inSplit l d n (s.pickShares n) :=
        (huntAgain_tab _ _ i).trans (get_set_self s.tabs i _)
      rw [htab] at hbegins
      exact exec_split hready (hsplit fun h => absurd hidle h) hbegins

end Sys2Proof.Machine
end

section
/-! SUPPORT. The split engine's own steps (R133, R145, R149, R151, R152, R158, R159): the take-up, and a completion handed over
and settled or released. -/

namespace Sys2Proof.Machine

/-! ### A step that no request causes -/

/-- What such a step answers when its effect raises events and keeps every pending set that it meets: `happen_raised` for an
effect that sends frames. -/
theorem happen_sends {effect : State → State} {r : Raised} {s t : State} (hr : s.resetPin = false) (he : effect s = t.raised r)
    (hp : ∀ l, (s.port l).pendingSet = (t.port l).pendingSet) : happen effect s = .next (t.told r) := by
  simp only [happen, hr, he, Bool.false_eq_true, if_false, composeNotices_raised r s t hp]

/-- What such a step answers when it raises nothing. -/
theorem happen_silent {effect : State → State} {s t : State} (hr : s.resetPin = false) (he : effect s = t)
    (hp : t.ports = s.ports) : happen effect s = .next t := by
  simp only [happen, hr, he, Bool.false_eq_true, if_false]
  rw [composeNotices_unchanged s t fun l => by simp only [State.port, hp]]

theorem setPort_raised (r : Raised) (s : State) (l : Lane) (e : PortEntry) :
    (s.raised r).setPort l { e with events := e.events ||| r (.lane l) } = (s.setPort l e).raised r := by
  have hp : ((s.raised r).setPort l { e with events := e.events ||| r (.lane l) }).ports = ((s.setPort l e).raised r).ports :=
    table_ext fun m => by
      show ((s.raised r).setPort l _).port m = ((s.setPort l e).raised r).port m
      rw [State.setPort_port, raised_port, raised_port, State.setPort_port]
      split <;> subst_vars <;> rfl
  exact congrArg (fun x => { (s.setPort l e).raised r with ports := x }) hp

theorem told_port (r : Raised) (s : State) (l : Lane) : (s.told r).port l = (s.port l).gains [] (r (.lane l)) := tableOf_get _ l

/-- Events raised to lanes alone reach the port table alone (R179). -/
theorem told_toLanes (k : EventKind) (ls : List Lane) (s : State) :
    s.told (toLanes k ls) = { s with ports := (s.told (toLanes k ls)).ports } := by
  simp [State.told, toLanes]

/-- A kind raised to a port stands in its event set (R179). -/
theorem gains_events {k : EventKind} {r : EventSet} (frames : List Frame) (e : PortEntry) (h : r = eventBit k) :
    (e.gains frames r).events &&& eventBit k ≠ 0 := by
  have hor : r ||| 0 = r := BitVec.or_zero
  exact hor ▸ and_raised_ne_zero (e := e.events) (b := 0) h

/-! ### SPLIT_BEGIN (R133, R149) -/

theorem takeUp_first {job : SplitJob} {rest : List SplitJob} {i : Slot} {s : State} (hc : s.computing = none)
    (hw : s.waiting = job :: rest) (hi : s.findTab job.tab = some i) :
    takeUp s
      = { s with
          waiting := rest
          computing := some { job := job, refs := (s.tab i).shareRefs, inputs := readInputs s (s.tab i) } } := by
  unfold takeUp
  split
  · rename_i hw'
    cases hw.symm.trans hw'
    exact beginJob_eq hi
  · rename_i hne
    exact absurd hw (hne job rest hc)

/-! ### The shares written (R145, R151) -/

theorem lookup_of_mem {α β : Type} [BEq α] [LawfulBEq α] {l : List (α × β)} (hn : (l.map Prod.fst).Nodup) {a : α} {b : β}
    (h : (a, b) ∈ l) : l.lookup a = some b := by
  induction l with
  | nil => cases h
  | cons q l ih =>
    rw [List.map_cons, List.nodup_cons] at hn
    rcases List.mem_cons.mp h with rfl | h
    · simp
    · have hne : (a == q.1) = false := beq_eq_false_iff_ne.mpr fun e => hn.1 (e ▸ List.mem_map_of_mem h)
      rw [List.lookup_cons, hne]
      exact ih hn.2 h

/-- The share of a computation at a position, as it is written. -/
theorem mem_writtenShares {c : Computation} {j : ShareNo} {sh : Share} :
    (j, sh) ∈ writtenShares c ↔ ∃ k g, c.refs[k]? = some j ∧ (splitFigures c.job.shape c.inputs)[k]? = some g
      ∧ sh = createShare c.job.tab (k + 1) g := by
  simp only [writtenShares, List.mem_map, Prod.mk.injEq]
  constructor
  · rintro ⟨⟨⟨j', g⟩, k⟩, hq, rfl, rfl⟩
    obtain ⟨hj, hg⟩ := List.getElem?_zip_eq_some.mp (List.mem_zipIdx_iff_getElem?.mp hq)
    exact ⟨k, g, hj, hg, rfl⟩
  · rintro ⟨k, g, hj, hg, rfl⟩
    exact ⟨((j, g), k), List.mem_zipIdx_iff_getElem?.mpr (List.getElem?_zip_eq_some.mpr ⟨hj, hg⟩), rfl, rfl⟩

/-- A computation whose records are its own and as many as its shares (R148). -/
structure Computation.Fits (c : Computation) : Prop where
  nodup : c.refs.Nodup
  length : c.refs.length = (splitFigures c.job.shape c.inputs).length

theorem writtenShares_lookup {c : Computation} (hc : c.Fits) {k : Nat} {j : ShareNo} {g : ShareFigures}
    (hj : c.refs[k]? = some j) (hg : (splitFigures c.job.shape c.inputs)[k]? = some g) :
    (writtenShares c).lookup j = some (createShare c.job.tab (k + 1) g) := by
  have hkeys : (writtenShares c).map Prod.fst = c.refs := by
    rw [writtenShares, List.map_map]
    exact (map_zipIdx_fst Prod.fst _).trans (List.map_fst_zip hc.length.le)
  exact lookup_of_mem (hkeys.symm ▸ hc.nodup) (mem_writtenShares.mpr ⟨k, g, hj, hg, rfl⟩)

theorem writtenShares_lookup_none {c : Computation} {j : ShareNo} (hj : j ∉ c.refs) : (writtenShares c).lookup j = none := by
  refine List.lookup_eq_none_iff.mpr fun q hq => bne_iff_ne.mpr fun e => ?_
  obtain ⟨k, g, hk, -⟩ := mem_writtenShares.mp hq
  exact hj (e ▸ List.mem_of_getElem? hk)

/-! ### The hand-over (R145) -/

/-- The share store with the shares of a computation written (R145). -/
def State.sharesWritten (c : Computation) (s : State) : Vector ShareRecord 384 :=
  tableOf fun j =>
    match (writtenShares c).lookup j with
    | some sh => .held sh
    | none => s.shares.get j

theorem sharesWritten_held {c : Computation} (hc : c.Fits) (s : State) {k : Nat} {j : ShareNo} {g : ShareFigures}
    (hj : c.refs[k]? = some j) (hg : (splitFigures c.job.shape c.inputs)[k]? = some g) :
    (s.sharesWritten c).get j = .held (createShare c.job.tab (k + 1) g) := by
  rw [State.sharesWritten, tableOf_get, writtenShares_lookup hc hj hg]

theorem sharesWritten_other {c : Computation} (s : State) {j : ShareNo} (hj : j ∉ c.refs) :
    (s.sharesWritten c).get j = s.shares.get j := by
  rw [State.sharesWritten, tableOf_get, writtenShares_lookup_none hj]

/-- A tab with its split complete (R145). -/
def Tab.computed (r : SplitRef) (c : Computation) (t : Tab) : Tab :=
  { t with split := some { r with totals := some (tabTotals c.inputs) } }

/-- A completion handed over (R145): the engine idle, the shares written, the tab's split complete. -/
def State.handed (i : Slot) (r : SplitRef) (c : Computation) (s : State) : State :=
  { s with computing := none, shares := s.sharesWritten c, tabs := s.tabs.set i ((s.tab i).computed r c) }

section

variable {c : Computation} {i : Slot} {r : SplitRef} {s : State}

theorem handOver_eq (hr : (s.tab i).split = some r) : handOver i c s = s.handed i r c := by
  have h : handOver i c s
      = { s with
          computing := none, shares := s.sharesWritten c
          tabs := s.tabs.set i
            { s.tab i with split := (s.tab i).split.map fun r => { r with totals := some (tabTotals c.inputs) } } } := rfl
  rw [h, hr]
  rfl

theorem handed_tab : (s.handed i r c).tab i = (s.tab i).computed r c := get_set_self s.tabs i _

/-- A completion in the presence of its settle owner (R151). -/
theorem complete_owned {l : Lane} (hc : s.computing = some c) (hi : s.findTab c.job.tab = some i) (hr : (s.tab i).split = some r)
    (howner : (s.tab i).owner = some l) : complete s = settle i l c (s.handed i r c) := by
  have howner' : ((s.handed i r c).tab i).owner = some l := by rw [handed_tab]; exact howner
  simp only [complete, hc, hi, handOver_eq hr, howner']

/-- A completion whose settle owner's port has been reset (R152). -/
theorem complete_unowned (hc : s.computing = some c) (hi : s.findTab c.job.tab = some i) (hr : (s.tab i).split = some r)
    (howner : (s.tab i).owner = none) : complete s = releaseSplit i (s.handed i r c) := by
  have howner' : ((s.handed i r c).tab i).owner = none := by rw [handed_tab]; exact howner
  simp only [complete, hc, hi, handOver_eq hr, howner']

/-! ### The shares of the tab (R151, R153) -/

/-- A list read through a function that answers at every position. -/
theorem filterMap_eq_of_getElem? {α β : Type} {f : α → Option β} {l : List α} {m : List β} (hlen : l.length = m.length)
    (h : ∀ (k : Nat) (a : α) (b : β), l[k]? = some a → m[k]? = some b → f a = some b) : l.filterMap f = m := by
  induction l generalizing m with
  | nil => exact (List.length_eq_zero_iff.mp hlen.symm).symm
  | cons a l ih =>
    cases m with
    | nil => cases hlen
    | cons b m =>
      rw [List.filterMap_cons_some (h 0 a b rfl rfl), ih (Nat.succ.inj hlen) fun k => h (k + 1)]

theorem sharesOf_handed (hc : c.Fits) (hrefs : r.refs = c.refs) :
    (s.handed i r c).sharesOf ((s.handed i r c).tab i)
      = (splitFigures c.job.shape c.inputs).zipIdx.map fun q => createShare c.job.tab (q.2 + 1) q.1 := by
  have htab : ((s.handed i r c).tab i).shareRefs = c.refs := by
    rw [handed_tab]
    exact hrefs
  rw [State.sharesOf, htab]
  refine filterMap_eq_of_getElem? (by simp [hc.length]) fun k j sh hj hsh => ?_
  rw [List.getElem?_map, Option.map_eq_some_iff] at hsh
  obtain ⟨⟨g, k'⟩, hq, rfl⟩ := hsh
  obtain ⟨rfl, hg⟩ : k = k' ∧ (splitFigures c.job.shape c.inputs)[k]? = some g := by
    rw [List.getElem?_zipIdx, Option.map_eq_some_iff] at hq
    obtain ⟨g', hg, e⟩ := hq
    cases e
    exact ⟨by omega, hg⟩
  have hheld : (s.handed i r c).shares.get j = .held (createShare c.job.tab (k + 1) g) := sharesWritten_held hc s hj hg
  rw [hheld]

/-- The dues that a completed split's shares hold are those computed (R145). -/
theorem duesOf_handed (hc : c.Fits) (hrefs : r.refs = c.refs) :
    ((s.handed i r c).sharesOf ((s.handed i r c).tab i)).map (fun sh => sh.figures.due)
      = (splitFigures c.job.shape c.inputs).map fun g => g.due := by
  rw [sharesOf_handed hc hrefs, List.map_map]
  exact map_zipIdx_fst (fun g : ShareFigures => g.due) _

/-! ### The withheld reply (R151) -/

/-- The body of a completed SPLIT's reply to an unlocked till (R151). -/
def splitBody (c : Computation) (closed : Bool) : List Field :=
  [Field.ident c.job.tab, Field.small c.job.count, Field.amount (tabTotal c.inputs)]
    ++ [Field.listCount (splitFigures c.job.shape c.inputs).length]
    ++ (splitFigures c.job.shape c.inputs).map (fun g => Field.amount g.due) ++ [Field.flag closed]

theorem splitReply_eq {l : Lane} (hc : c.Fits) (hrefs : r.refs = c.refs) (hnumber : (s.tab i).number = c.job.tab)
    (hunlocked : unlockedTill l (s.tab i) s = true) (closed : Bool) :
    splitReply l ((s.handed i r c).tab i) c (s.handed i r c) closed = ⟨.ok, splitBody c closed⟩ := by
  have hfigure : figure (.lane l) ((s.handed i r c).tab i) (s.handed i r c) = id := funext fun n => by
    rw [handed_tab]
    exact figure_unlocked (t := (s.tab i).computed r c) (s := s.handed i r c) hunlocked n
  have hnumber' : ((s.handed i r c).tab i).number = c.job.tab := by
    rw [handed_tab]
    exact hnumber
  simp only [splitReply, duesOf_handed hc hrefs, hfigure, hnumber', listField, splitBody, List.length_map, id,
    ← List.map_eq_flatMap, List.map_map, Function.comp_def, List.append_assoc]
  rfl

/-- A port entry with its withheld reply sent (R151, R177). -/
def PortEntry.repaid (tag : Nat) (c : Computation) (closed : Bool) (e : PortEntry) : PortEntry :=
  { e with
    outstanding := none
    transmit := e.transmit ++ [Frame.reply tag 0xB0 .ok (splitBody c closed)] }

theorem answerSplit_raised {l : Lane} {tag : Nat} {ev : Raised} {closed : Bool} {v : State}
    (hout : (v.port l).outstanding = some (tag, .split)) :
    answerSplit l ⟨.ok, splitBody c closed⟩ (v.raised ev) = (v.setPort l ((v.port l).repaid tag c closed)).raised ev := by
  rw [← setPort_raised]
  simp only [answerSplit, raised_port, hout, sendReply, sendFrame, State.setPort_port_self, State.setPort_setPort]
  rfl

/-! ### The settlement (R151, R158) -/

theorem closeTab_eq (i : Slot) (s : State) :
    closeTab i s
      = State.raised (both (toLanes .tabChanged (s.tab i).followers) (toPort .closeWaiting .office))
        { s.setTab i ((s.tab i).whenClosed s.clock) with closeQueue := s.closeQueue ++ [(s.tab i).number] } := by
  let u := (s.tab i).whenClosed s.clock
  have hself (q : List Nat) : State.tab { s.setTab i u with closeQueue := q } i = u := State.setTab_tab_self s i u
  have h : closeTab i s = touch i (raiseOffice .closeWaiting
      { s.setTab i u with closeQueue := s.closeQueue ++ [(State.tab { s.setTab i u with closeQueue := s.closeQueue } i).number] }) :=
    rfl
  rw [h, raiseOffice_eq, touch_eq, raised_tab, raised_raised, both_comm, hself, hself]
  rfl

/-- The tab of a computation settled, its port's reply sent: `u` is the tab's record and `q` the close queue (R151, R158). -/
def State.settled (l : Lane) (tag : Nat) (i : Slot) (c : Computation) (closed : Bool) (u : Tab) (q : List Nat)
    (s : State) : State :=
  { s with
    computing := none, shares := s.sharesWritten c, tabs := s.tabs.set i u, closeQueue := q
    ports := s.ports.set l ((s.port l).repaid tag c closed) }

theorem settled_port (l : Lane) (tag : Nat) (i : Slot) (c : Computation) (closed : Bool) (u : Tab) (q : List Nat) (s : State) :
    (s.settled l tag i c closed u q).port l = (s.port l).repaid tag c closed := get_set_self s.ports l _

theorem settled_pendingSet (l : Lane) (tag : Nat) (i : Slot) (c : Computation) (closed : Bool) (u : Tab) (q : List Nat)
    (s : State) (m : Lane) : (s.port m).pendingSet = ((s.settled l tag i c closed u q).port m).pendingSet := by
  have hm := State.setPort_port s l m ((s.port l).repaid tag c closed)
  refine Eq.trans ?_ (congrArg PortEntry.pendingSet hm).symm
  split <;> subst_vars <;> rfl

theorem settled_eq (l : Lane) (tag : Nat) (i : Slot) (r : SplitRef) (c : Computation) (closed : Bool) (u : Tab) (q : List Nat)
    (s : State) :
    s.settled l tag i c closed u q
      = State.setPort { (s.handed i r c).setTab i u with closeQueue := q } l ((s.port l).repaid tag c closed) := by
  have htabs : (s.tabs.set i ((s.tab i).computed r c)).set i u = s.tabs.set i u := congrArg State.tabs (s.setTab_setTab i _ u)
  exact congrArg (fun ts => { s.settled l tag i c closed u q with tabs := ts }) htabs.symm

/-- A computation that completes with its settle owner present, its SPLIT outstanding (R151). -/
structure Settles (l : Lane) (tag : Nat) (i : Slot) (r : SplitRef) (c : Computation) (s : State) : Prop where
  computing : s.computing = some c
  found : s.findTab c.job.tab = some i
  split : (s.tab i).split = some r
  refs : r.refs = c.refs
  fits : c.Fits
  owner : (s.tab i).owner = some l
  outstanding : (s.port l).outstanding = some (tag, .split)
  unlocked : unlockedTill l (s.tab i) s = true

namespace Settles

variable {l : Lane} {tag : Nat} (h : Settles l tag i r c s)
include h

theorem completes : complete s = settle i l c (s.handed i r c) := complete_owned h.computing h.found h.split h.owner

/-- Whether every due is 0 is read off the shares written (R151). -/
theorem all_paid : (((s.handed i r c).sharesOf ((s.handed i r c).tab i)).all fun sh => sh.figures.due = 0)
    = (splitFigures c.job.shape c.inputs).all fun g => g.due = 0 := by
  have hdues := congrArg (List.all · fun n => decide (n = 0)) (duesOf_handed (s := s) (i := i) h.fits h.refs)
  simpa only [List.all_map, Function.comp_def] using hdues

theorem reply (closed : Bool) :
    splitReply l ((s.handed i r c).tab i) c (s.handed i r c) closed = ⟨.ok, splitBody c closed⟩ :=
  splitReply_eq h.fits h.refs (findTab_some h.found).2.2.2 h.unlocked closed

/-- A split that owes nothing closes its tab at once (R151, R158). -/
theorem closes (hall : ((splitFigures c.job.shape c.inputs).all fun g => g.due = 0) = true) :
    complete s
      = State.raised (both (toLanes .tabChanged (s.tab i).followers) (toPort .closeWaiting .office))
        (s.settled l tag i c true (((s.tab i).computed r c).whenClosed s.clock) (s.closeQueue ++ [c.job.tab])) := by
  have hnumber : ((s.tab i).computed r c).number = c.job.tab := (findTab_some h.found).2.2.2
  rw [h.completes, settle, h.all_paid, hall, if_pos rfl, h.reply, closeTab_eq, handed_tab, hnumber,
    answerSplit_raised (by exact h.outstanding), settled_eq l tag i r]
  rfl

/-- A split that owes something keeps its tab SETTLING, its claim started (R151, R161). -/
theorem claims (hany : ((splitFigures c.job.shape c.inputs).all fun g => g.due = 0) = false) :
    complete s
      = State.raised (toLanes .tabChanged (s.tab i).followers)
        (s.settled l tag i c false { (s.tab i).computed r c with claim := some 300 } s.closeQueue) := by
  rw [h.completes, settle, h.all_paid, hany, if_neg Bool.false_ne_true, h.reply, State.modifyTab, handed_tab, touch_eq,
    State.setTab_tab_self, answerSplit_raised (by exact h.outstanding), settled_eq l tag i r]
  rfl

end Settles

/-! ### The release (R152, R159) -/

/-- The records of a split in hand, freed when its owner is gone (R152). -/
theorem released_shares (hrefs : r.refs = c.refs) :
    (tableOf fun j => if j ∈ r.refs then .free else (s.sharesWritten c).get j)
      = (tableOf fun j => if j ∈ r.refs then .free else s.shares.get j : Vector ShareRecord 384) := by
  refine table_ext fun j => ?_
  rw [tableOf_get, tableOf_get]
  split
  · rfl
  · exact sharesWritten_other s (hrefs ▸ ‹_›)

/-- What such a completion leaves: the split released, and no share written (R152, R159). -/
theorem complete_released (hc : s.computing = some c) (hi : s.findTab c.job.tab = some i) (hr : (s.tab i).split = some r)
    (hrefs : r.refs = c.refs) (howner : (s.tab i).owner = none) (hn : (s.approvals.map Entry.number).Nodup) :
    complete s
      = State.raised (both (toLanes .tabChanged (s.tab i).followers) (toRequesters (s.undosOf c.job.tab)))
        (State.ended (s.undosOf c.job.tab) .stale
          { s with
            computing := none
            tabs := s.tabs.set i (s.tab i).reopened
            shares := tableOf fun j => if j ∈ r.refs then .free else s.shares.get j }) := by
  have hnumber : ((s.tab i).computed r c).number = c.job.tab := (findTab_some hi).2.2.2
  have hset : (s.tabs.set i ((s.tab i).computed r c)).set i (s.tab i).reopened = s.tabs.set i (s.tab i).reopened :=
    congrArg State.tabs (s.setTab_setTab i _ _)
  rw [complete_unowned hc hi hr howner, releaseSplit_eq (s := s.handed i r c) hn, State.released, releaseRaised,
    handed_tab, hnumber, ← released_shares hrefs, ← hset]
  rfl

end

/-- Settles O46: the take-up, then a completion without its owner, and with it, owing nothing and owing something. -/
theorem splitEngineWorks : Obligations.SplitEngineWorks := by
  intro s hreset
  refine ⟨fun job rest i r hc hw hi hr => ?_, fun c i r hc hi hr hrefs howner hn => ?_,
    fun c i r l tag hc hi hr hrefs hnodup hlen howner hout hrole hpin hall => ?_,
    fun c i r l tag hc hi hr hrefs hnodup hlen hnumber howner hout hrole hpin hany => ?_⟩
  · refine happen_silent hreset ((takeUp_first hc hw hi).trans ?_) rfl
    rw [Tab.shareRefs, hr]
    rfl
  · exact happen_sends hreset (complete_released hc hi hr hrefs howner hn) fun m => rfl
  · have hs : Settles l tag i r c s := ⟨hc, hi, hr, hrefs, ⟨hnodup, hlen⟩, howner, hout, unlockedTill_iff.mpr ⟨hrole, hpin⟩⟩
    have hdue (g : ShareFigures) (hg : g ∈ splitFigures c.job.shape c.inputs) : g.due = 0 := by
      simpa using List.all_eq_true.mp hall g hg
    have hzero : (splitFigures c.job.shape c.inputs).map (fun g => Field.amount g.due)
        = (splitFigures c.job.shape c.inputs).map fun _ => Field.amount 0 :=
      List.map_congr_left fun g hg => by rw [hdue g hg]
    refine ⟨_, happen_sends hreset (hs.closes hall) (settled_pendingSet l tag i c true _ _ s),
      fun k j g hj hg => ?_, fun j hj => sharesWritten_other s hj, ?_⟩
    · refine (sharesWritten_held hs.fits s hj hg).trans ?_
      rw [createShare, hdue g (List.mem_of_getElem? hg), if_pos rfl]
    · rw [← hzero]
      rfl
  · have hs : Settles l tag i r c s := ⟨hc, hi, hr, hrefs, ⟨hnodup, hlen⟩, howner, hout, unlockedTill_iff.mpr ⟨hrole, hpin⟩⟩
    have hnot : ((splitFigures c.job.shape c.inputs).all fun g => g.due = 0) = false := by
      rw [List.all_eq_not_any_not]
      simpa using hany
    refine ⟨_, happen_sends hreset (hs.claims hnot) (settled_pendingSet l tag i c false _ _ s), rfl, rfl,
      fun k j g hj hg => sharesWritten_held hs.fits s hj hg, fun j hj => sharesWritten_other s hj, rfl, ?_, ?_,
      fun m hm => ?_, ?_⟩
    · rw [told_port, settled_port]
      rfl
    · rw [told_port, settled_port]
      simp [PortEntry.gains, PortEntry.repaid, splitBody]
    · rw [told_port]
      refine gains_events [] _ ?_
      simp [toLanes, hm]
    · exact told_toLanes _ _ _

end Sys2Proof.Machine
end

section
/-! SUPPORT. The books of the shares (R153): which operations leave the share store as it is, and the few that change a record. -/

namespace Sys2Proof.Machine

/-! ### Records with sound books -/

/-- The books of a record: only a written share has any (R153). -/
def ShareRecord.Sound : ShareRecord → Prop
  | .held sh => sh.sound = true
  | .free | .reserved _ => True

theorem sharesHold_iff (s : State) : SharesHold s ↔ ∀ j, (s.shares.get j).Sound :=
  forall_congr' fun j => by cases s.shares.get j <;> rfl

/-- A change of state after which the books of the shares agree if they did before. -/
structure KeepsShares (s t : State) : Prop where
  books : SharesHold s → SharesHold t

/-- The change record by record. -/
theorem keepsShares_iff {s t : State} :
    KeepsShares s t ↔ ((∀ j, (s.shares.get j).Sound) → ∀ j, (t.shares.get j).Sound) := by
  rw [← sharesHold_iff, ← sharesHold_iff]
  exact ⟨KeepsShares.books, .mk⟩

theorem keepsShares_of_same {s t : State} (h : t.shares = s.shares) : KeepsShares s t :=
  keepsShares_iff.mpr fun hs => by rwa [h]

theorem KeepsShares.refl (s : State) : KeepsShares s s := ⟨id⟩

theorem KeepsShares.trans {s t u : State} (h : KeepsShares s t) (h' : KeepsShares t u) : KeepsShares s u :=
  ⟨h'.books ∘ h.books⟩

theorem KeepsShares.same {s t u : State} (h : KeepsShares s t) (h' : u.shares = t.shares) : KeepsShares s u :=
  h.trans (keepsShares_of_same h')

theorem KeepsShares.after {s t u : State} (h : KeepsShares t u) (h' : t.shares = s.shares) : KeepsShares s u :=
  (keepsShares_of_same h').trans h

/-- The records of some references replaced by records whose books agree. -/
theorem keepsShares_replaced {s t : State} {refs : List ShareNo} {r : ShareRecord} (hr : r.Sound)
    (ht : t.shares = tableOf fun j => if j ∈ refs then r else s.shares.get j) : KeepsShares s t :=
  keepsShares_iff.mpr fun hs j => by
    rw [ht, tableOf_get]
    split
    · exact hr
    · exact hs j

/-- One share replaced by a share whose books agree where its own did. -/
theorem keepsShares_setShare {s : State} {j : ShareNo} {sh sh' : Share} (hj : s.shares.get j = .held sh)
    (h : sh.sound = true → sh'.sound = true) : KeepsShares s (s.setShare j (.held sh')) := keepsShares_iff.mpr fun hs k => by
  by_cases hk : k = j
  · subst hk
    have hold := hs k
    rw [hj] at hold
    rw [State.setShare_shares, get_set_self]
    exact h hold
  · rw [State.setShare_shares, get_set_ne _ _ hk]
    exact hs k

/-- A device reset leaves every record free (R186). -/
theorem keepsShares_reset {s t : State} (h : t.shares = State.reset.shares) : KeepsShares s t := keepsShares_iff.mpr fun _ j => by
  rw [h, show State.reset.shares.get j = .free from replicate_get _ j]
  trivial

/-! ### Operations that leave the share store as it is -/

theorem shares_of_samePart {s t : State} (h : s.samePart t) : t.shares = s.shares := by
  unfold State.samePart at h
  rw [h]

@[simp] theorem modifyTab_shares (s : State) (i : Slot) (f : Tab → Tab) : (s.modifyTab i f).shares = s.shares := rfl

@[simp] theorem modifyStation_shares (s : State) (st : StationNo) (f : Station → Station) :
    (s.modifyStation st f).shares = s.shares := rfl

@[simp] theorem answer_shares (s : State) (status : Status) (body : List Field) : (answer s status body).1.shares = s.shares := rfl

@[simp] theorem touch_shares (i : Slot) (s : State) : (touch i s).shares = s.shares := rfl

@[simp] theorem raiseLanes_shares (k : EventKind) (ls : List Lane) (s : State) : (raiseLanes k ls s).shares = s.shares := rfl

@[simp] theorem raisePort_shares (k : EventKind) (p : Port) (s : State) : (raisePort k p s).shares = s.shares := by
  simp [raisePort_eq]

@[simp] theorem announceQueue_shares (s : State) : (announceQueue s).shares = s.shares := by simp [announceQueue_eq]

@[simp] theorem returnToken_shares (s : State) : (returnToken s).shares = s.shares := announceQueue_shares _

@[simp] theorem updateItem_shares (m : ItemNo) (it : Item) (s : State) : (updateItem m it s).shares = s.shares := by
  simp [updateItem_eq]

@[simp] theorem recomputeRail_shares (st : StationNo) (s : State) : (recomputeRail st s).shares = s.shares := by
  rw [recomputeRail_eq]
  rfl

@[simp] theorem recomputeRails_shares (sts : List StationNo) (s : State) : (recomputeRails sts s).shares = s.shares := by
  induction sts generalizing s with
  | nil => rfl
  | cons st sts ih => exact (ih _).trans (recomputeRail_shares st s)

@[simp] theorem closeEntries_shares (v : Verdict) (es : List Entry) (s : State) : (es.foldl (closeEntry v) s).shares = s.shares :=
  (closeEntries_frame v es s).2.2.2.1

@[simp] theorem endStale_shares (tab : Nat) (which : Ask → Bool) (s : State) : (endStale tab which s).shares = s.shares :=
  closeEntries_shares _ _ _

/-- A tab that becomes FREE has given up its shares before (R23, R166). -/
@[simp] theorem freeTab_shares (i : Slot) (s : State) : (freeTab i s).shares = s.shares := endStale_shares _ _ (touch i s)

/-- A tab keeps its shares when it closes (R158). -/
@[simp] theorem closeTab_shares (i : Slot) (s : State) : (closeTab i s).shares = s.shares := rfl

@[simp] theorem answerSplit_shares (l : Lane) (r : Reply) (s : State) : (answerSplit l r s).shares = s.shares := by
  unfold answerSplit
  split <;> rfl

@[simp] theorem queueEntry_shares (l : Lane) (i : Slot) (ask : Ask) (reason : Nat) (s : State) :
    (queueEntry l i ask reason s).shares = s.shares := by
  unfold queueEntry
  dsimp only
  rw [raisePort_shares]
  split <;> rfl

@[simp] theorem decideEntry_shares (v : Verdict) (e : Entry) (s : State) : (decideEntry v e s).shares = s.shares := by
  refine (closeEntries_shares v [e] _).trans ?_
  unfold clearPending
  split <;> rfl

/-! ### Requests on a tab -/

/-- A request that names a tab leaves the store as its continuation does (R24, R161). -/
theorem withTab_shares {p : Port} {n : Nat} {s : State} {k : Slot → State → Answer} {missing : List Field}
    (h : ∀ i u, (k i u).1.shares = u.shares) : (withTab p n s k missing).1.shares = s.shares := by
  rw [withTab_eq]
  split
  · rfl
  · exact h _ _

theorem withTab_keepsShares {p : Port} {n : Nat} {s : State} {k : Slot → State → Answer} {missing : List Field}
    (h : ∀ i u, KeepsShares u (k i u).1) : KeepsShares s (withTab p n s k missing).1 := by
  rw [withTab_eq]
  split
  · exact .refl s
  · exact (h _ _).after rfl

theorem supervise_shares {l : Lane} {i : Slot} {ask : Ask} {reason : Nat} {s : State} {applied full : Answer}
    {queuedBody : Nat → List Field} (ha : applied.1.shares = s.shares) (hf : full.1.shares = s.shares) :
    (supervise l i ask reason s applied full queuedBody).1.shares = s.shares := by
  rcases supervise_cases l i ask reason s applied full queuedBody with ⟨-, h⟩ | ⟨-, -, h⟩ | ⟨-, -, h⟩ <;> rw [h]
  · exact ha
  · exact hf
  · exact queueEntry_shares l i ask reason s

theorem withOpenLine_shares {l : Lane} {i : Slot} {n : Nat} {ok : Bool} {s : State} {k : Line → Answer}
    (h : ∀ x, (k x).1.shares = s.shares) : (withOpenLine l i n ok s k).1.shares = s.shares := by
  unfold withOpenLine
  dsimp only
  iterate 6 (split; · rfl)
  exact h _

end Sys2Proof.Machine
end

section
/-! SUPPORT. The requests outside settlement leave the share store as it is, block by block in the order of the model's files. -/

namespace Sys2Proof.Machine

/-! ### Approvals (R110 to R130) -/

theorem applyVoidFired_shares (i : Slot) (n : Nat) (s : State) : (applyVoidFired i n s).shares = s.shares := by
  unfold applyVoidFired
  iterate 2 (split; · rfl)
  dsimp only
  split <;> rfl

theorem applyComp_shares (i : Slot) (n : Nat) (s : State) : (applyComp i n s).shares = s.shares := by
  unfold applyComp
  split
  · split <;> rfl
  · rfl

theorem applyPrice_shares (i : Slot) (n price : Nat) (s : State) : (applyPrice i n price s).shares = s.shares := by
  unfold applyPrice
  split <;> rfl

theorem deny_shares (p : Port) (n : Nat) (s : State) : (deny p n s).1.shares = s.shares := by
  unfold deny
  iterate 2 (split; · rfl)
  exact decideEntry_shares _ _ s

theorem withdraw_shares (l : Lane) (n : Nat) (s : State) : (withdraw l n s).1.shares = s.shares := by
  unfold withdraw
  iterate 2 (split; · rfl)
  exact decideEntry_shares _ _ s

theorem passSupervisor_shares (p : Port) (n : Nat) (s : State) : (passSupervisor p n s).1.shares = s.shares := by
  unfold passSupervisor
  iterate 4 (split; · rfl)
  simp

theorem reclaim_shares (f : Unit) (s : State) : (reclaim f s).1.shares = s.shares := by
  unfold reclaim
  split <;> simp

theorem approvalList_shares (p : Port) (start : Nat) (s : State) : (approvalList p start s).1.shares = s.shares := by
  unfold approvalList
  iterate 2 (split; · rfl)
  rfl

/-! ### The catalogue (R3 to R10, R18) -/

theorem loadItem_shares (f : LoadItemFields) (s : State) : (loadItem f s).1.shares = s.shares := by
  unfold loadItem
  split
  · split <;> simp
  · rfl

theorem withdrawItem_shares (n : Nat) (s : State) : (withdrawItem n s).1.shares = s.shares := by
  unfold withdrawItem
  split
  · rfl
  split <;> simp

theorem setCount_shares (p : Port) (f : SetCountFields) (s : State) : (setCount p f s).1.shares = s.shares := by
  unfold setCount
  split
  · rfl
  dsimp only
  split
  · rfl
  split <;> simp

theorem loadModifier_shares (f : LoadModifierFields) (s : State) : (loadModifier f s).1.shares = s.shares := by
  unfold loadModifier
  iterate 2 (split; · rfl)
  rfl

theorem setTaxRate_shares (f : SetTaxRateFields) (s : State) : (setTaxRate f s).1.shares = s.shares := by
  unfold setTaxRate
  iterate 2 (split; · rfl)
  rfl

theorem setGroupPriority_shares (f : SetGroupPriorityFields) (s : State) : (setGroupPriority f s).1.shares = s.shares := by
  unfold setGroupPriority
  split <;> simp

theorem availability_shares (first : Nat) (s : State) : (availability first s).1.shares = s.shares := by
  unfold availability
  split <;> rfl

/-! ### FIRE (R68 to R77) -/

theorem fireLine_shares (i : Slot) (number : Nat) (s : State) (n : Nat) : (fireLine i number s n).shares = s.shares := by
  unfold fireLine
  split
  · rfl
  split <;> rfl

theorem fireLines_shares (i : Slot) (number : Nat) (ns : List Nat) (s : State) :
    (ns.foldl (fireLine i number) s).shares = s.shares := by
  induction ns generalizing s with
  | nil => rfl
  | cons n ns ih => exact (ih _).trans (fireLine_shares i number s n)

theorem createTickets_shares (i : Slot) (ds : List Draft) (s : State) : (createTickets i ds s).1.shares = s.shares := by
  induction ds generalizing s with
  | nil => rfl
  | cons d ds ih => exact (ih _).trans (fireLines_shares i _ _ _)

theorem fire_shares (l : Lane) (f : FireFields) (s : State) : (fire l f s).1.shares = s.shares :=
  withTab_shares fun i u => by
    dsimp only
    iterate 7 (split; · rfl)
    simp [fireDrafts, createTickets_shares]

/-! ### Tabs (R25 to R47) -/

theorem openTab_shares (l : Lane) (f : OpenTabFields) (s : State) : (openTab l f s).1.shares = s.shares := by
  unfold openTab
  iterate 2 (split; · rfl)
  rfl

theorem tabView_shares (p : Port) (f : TabPageFields) (s : State) : (tabView p f s).1.shares = s.shares :=
  withTab_shares fun _ _ => by split <;> rfl

theorem addLine_shares (l : Lane) (f : AddLineFields) (s : State) : (addLine l f s).1.shares = s.shares :=
  withTab_shares fun _ _ => by
    dsimp only
    iterate 8 (split; · rfl)
    simp [enterLine]

theorem pullBack_shares (i : Slot) (n : Nat) (x : Line) (st : StationNo) (tk : Ticket) (s : State) :
    (pullBack i n x st tk s).shares = s.shares := by
  unfold pullBack
  dsimp only
  split <;> simp

theorem voidLine_shares (l : Lane) (f : VoidLineFields) (s : State) : (voidLine l f s).1.shares = s.shares :=
  withTab_shares fun _ u => by
    dsimp only
    iterate 4 (split; · rfl)
    split
    · rfl
    · rfl
    · simp [strikeEntered]
    · split
      · exact pullBack_shares _ _ _ _ _ u
      · exact supervise_shares (applyVoidFired_shares _ _ u) rfl
      · rfl

theorem compLine_shares (l : Lane) (f : CompLineFields) (s : State) : (compLine l f s).1.shares = s.shares :=
  withTab_shares fun _ u => withOpenLine_shares fun _ => by
    split
    · rfl
    · exact supervise_shares (applyComp_shares _ _ u) rfl

theorem overridePrice_shares (l : Lane) (f : OverridePriceFields) (s : State) : (overridePrice l f s).1.shares = s.shares :=
  withTab_shares fun _ u => withOpenLine_shares fun _ => by
    dsimp only
    split
    · rfl
    · exact supervise_shares (applyPrice_shares _ _ _ u) rfl

theorem follow_shares (l : Lane) (n : Nat) (s : State) : (follow l n s).1.shares = s.shares :=
  withTab_shares fun _ _ => by
    dsimp only
    iterate 2 (split; · rfl)
    rfl

theorem setService_shares (p : Port) (f : SetServiceFields) (s : State) : (setService p f s).1.shares = s.shares :=
  withTab_shares fun _ _ => by
    dsimp only
    iterate 4 (split; · rfl)
    rfl

/-! ### Protection (R52 to R57) -/

theorem unlock_shares (l : Lane) (f : TabPinFields) (s : State) : (unlock l f s).1.shares = s.shares :=
  withTab_shares fun _ _ => by
    dsimp only
    iterate 5 (split; · rfl)
    split <;> rfl

theorem lock_shares (l : Lane) (n : Nat) (s : State) : (lock l n s).1.shares = s.shares :=
  withTab_shares fun _ _ => by
    dsimp only
    split <;> rfl

theorem setPin_shares (l : Lane) (f : TabPinFields) (s : State) : (setPin l f s).1.shares = s.shares :=
  withTab_shares fun _ _ => by
    dsimp only
    iterate 4 (split; · rfl)
    rfl

theorem clearLockout_shares (l : Lane) (f : ClearLockoutFields) (s : State) : (clearLockout l f s).1.shares = s.shares :=
  withTab_shares fun _ _ => by
    dsimp only
    iterate 3 (split; · rfl)
    exact supervise_shares rfl rfl

/-! ### Stations (R93 to R107) -/

theorem take_shares (st : StationNo) (f : Unit) (s : State) : (take st f s).1.shares = s.shares := by
  unfold take
  iterate 2 (split; · rfl)
  exact recomputeRail_shares st _

theorem bump_shares (st : StationNo) (f : Unit) (s : State) : (bump st f s).1.shares = s.shares := by
  unfold bump
  split
  · rfl
  dsimp only
  rw [answer_shares]
  split
  · unfold serveTab
    dsimp only
    split <;> simp
  · rfl

theorem resume_shares (st : StationNo) (f : Unit) (s : State) : (resume st f s).1.shares = s.shares := by
  unfold resume
  split <;> rfl

theorem recallTicket_shares (st : StationNo) (n : Nat) (s : State) : (recallTicket st n s).1.shares = s.shares := by
  unfold recallTicket
  iterate 4 (split; · rfl)
  dsimp only
  rw [answer_shares]
  split <;> rfl

theorem holdLow_shares (st : StationNo) (code : Nat) (s : State) : (holdLow st code s).1.shares = s.shares := by
  unfold holdLow
  split
  · rfl
  · exact recomputeRail_shares st _

theorem setWorking_shares (asked : StationState) (st : StationNo) (s : State) : (setWorking asked st s).1.shares = s.shares := by
  unfold setWorking
  iterate 2 (split; · rfl)
  exact recomputeRail_shares st _

theorem pauseOrOpen_shares (asked : StationState) (p : Port) (f : Option Nat) (s : State) :
    (pauseOrOpen asked p f s).1.shares = s.shares := by
  unfold pauseOrOpen
  split
  · split
    · exact setWorking_shares asked _ s
    · rfl
  · split
    · exact setWorking_shares asked _ s
    · rfl

theorem stationView_shares (st : StationNo) (start : Nat) (s : State) : (stationView st start s).1.shares = s.shares := by
  unfold stationView
  split <;> rfl

theorem reconfigure_shares (st : StationNo) (state : StationState) (a : Option StationNo) (threshold : Nat) (status : Status)
    (s : State) : (reconfigure st state a threshold status s).1.shares = s.shares := recomputeRail_shares st _

theorem closeStation_shares (st : StationNo) (a : Option StationNo) (threshold : Nat) (status : Status) (s : State) :
    (closeStation st a threshold status s).1.shares = s.shares := by
  unfold closeStation
  dsimp only
  split
  · rfl
  split
  · exact reconfigure_shares st _ a threshold status s
  iterate 3 (split; · rfl)
  exact recomputeRails_shares _ _

theorem setStation_shares (f : SetStationFields) (s : State) : (setStation f s).1.shares = s.shares := by
  unfold setStation
  split
  · split
    · rfl
    dsimp only
    split
    · exact closeStation_shares _ _ _ _ s
    · exact reconfigure_shares _ _ _ _ _ s
  · rfl

theorem expireLate_shares (n : Nat) (s : State) : (expireLate n s).shares = s.shares := by
  unfold expireLate
  split
  · rfl
  dsimp only
  split <;> rfl

/-! ### Ports and frames (R167 to R185) -/

theorem bindStation_shares (l : Lane) (st : StationNo) (s : State) : (bindStation l st s).shares = s.shares :=
  recomputeRail_shares st _

theorem keepStanding_shares (l : Lane) (f : SetPortFields) (r : Role) (s : State) : (keepStanding l f r s).shares = s.shares := by
  unfold keepStanding
  dsimp only
  split
  · exact returnToken_shares _
  · rfl

theorem events_shares (p : Port) (f : Unit) (s : State) : (events p f s).1.shares = s.shares := by cases p <;> rfl

theorem setMask_shares (p : Port) (mask : Nat) (s : State) : (setMask p mask s).1.shares = s.shares := by cases p <;> rfl

theorem clockFrame_shares (p : Port) (n : Nat) (s : State) : (clockFrame p n s).shares = s.shares :=
  shares_of_samePart (samePart_clockFrame p n s)

theorem dropFrame_shares (p : Port) (s : State) : (dropFrame p s).shares = s.shares :=
  shares_of_samePart (samePart_dropFrame p s)

theorem beginFrame_shares (b : StartByte) (s : State) : (beginFrame b s).shares = s.shares := by
  unfold beginFrame
  split
  · refine Eq.trans ?_ (clockFrame_shares (startPort b) (startTransfers b) s)
    cases startPort b <;> rfl
  · rfl

theorem drawn_shares (n : Nat) (s : State) :
    (dropFrame .office (clockReply n { s with draws := s.draws + 1 })).shares = s.shares := by
  rw [dropFrame_shares]
  unfold clockReply
  split
  · rfl
  split <;> rfl

theorem discardFrame_shares (s : State) : (discardFrame s).shares = s.shares := by
  unfold discardFrame
  split
  · rfl
  · exact drawn_shares _ s

theorem overrun_shares (s : State) : (overrun s).shares = s.shares := by
  unfold overrun
  split
  · rfl
  · exact drawn_shares _ s

end Sys2Proof.Machine
end

section
/-! SUPPORT. The requests and steps that change share records, and what every command leaves of the books of the shares (R145, R148,
R153 to R166). -/

namespace Sys2Proof.Machine

/-! ### Records reserved, written and made free (R148, R153, R159) -/

theorem freeShares_keepsShares (refs : List ShareNo) (s : State) : KeepsShares s (freeShares refs s) :=
  keepsShares_replaced (r := .free) trivial rfl

theorem takeUp_shares (s : State) : (takeUp s).shares = s.shares := by
  unfold takeUp
  split <;> rfl

theorem handToEngine_shares (job : SplitJob) (s : State) : (handToEngine job s).shares = s.shares := by
  unfold handToEngine
  split <;> rfl

theorem acceptSplit_keepsShares (l : Lane) (tag : Nat) (i : Slot) (d : ShareDef) (n : Nat) (s : State) :
    KeepsShares s (acceptSplit l tag i d n s) := by
  refine keepsShares_replaced (refs := s.pickShares n) (r := .reserved (s.tab i).number) trivial ?_
  unfold acceptSplit
  dsimp only
  rw [touch_shares, State.setPort_shares, handToEngine_shares, takeUp_shares]
  rfl

/-- The engine writes shares without a tender (R145, R151). -/
theorem handOver_keepsShares (i : Slot) (c : Computation) (s : State) : KeepsShares s (handOver i c s) :=
  keepsShares_iff.mpr fun hs j => by
    have hshares : (handOver i c s).shares = s.sharesWritten c := rfl
    rw [hshares, State.sharesWritten, tableOf_get]
    split
    · rename_i sh hsh
      obtain ⟨before, after, hsplit, -⟩ := List.lookup_eq_some_iff.mp hsh
      obtain ⟨k, g, -, -, rfl⟩ := mem_writtenShares.mp (hsplit ▸ List.mem_append_right before List.mem_cons_self)
      exact Share.sound_create _ _ _
    · exact hs j

theorem releaseSplit_keepsShares (i : Slot) (s : State) : KeepsShares s (releaseSplit i s) :=
  (freeShares_keepsShares (s.tab i).shareRefs s).same (endStale_shares _ _ _)

theorem loseOwner_keepsShares (i : Slot) (s : State) : KeepsShares s (loseOwner i s) := by
  rw [loseOwner_eq]
  split
  · exact keepsShares_of_same rfl
  · exact (releaseSplit_keepsShares i _).after rfl

theorem exportTab_keepsShares (i : Slot) (s : State) : KeepsShares s (exportTab i s) := by
  refine (freeShares_keepsShares (s.tab i).shareRefs s).same ?_
  unfold exportTab
  dsimp only
  split
  · exact freeTab_shares i _
  · rfl

theorem complete_keepsShares (s : State) : KeepsShares s (complete s) := by
  unfold complete
  split
  · exact .refl s
  rename_i c _
  split
  · exact keepsShares_of_same rfl
  rename_i i _
  have h := handOver_keepsShares i c s
  dsimp only
  split
  · refine h.same ?_
    unfold settle
    dsimp only
    split <;> simp
  · exact h.trans (releaseSplit_keepsShares i _)

/-! ### Tenders taken and undone (R125, R155 to R157) -/

/-- A share that is not PAID has something left to pay (R153). -/
theorem Share.remaining_pos {sh : Share} (h : sh.sound = true) (hst : sh.state ≠ .paid) : 1 ≤ sh.remaining := by
  simp only [Share.sound, Bool.and_eq_true, decide_eq_true_eq] at h
  obtain ⟨⟨⟨⟨-, hdue⟩, -⟩, -⟩, hpaid⟩ := h
  have hne : sh.paid ≠ sh.figures.due := fun e => hst (hpaid.mpr e)
  unfold Share.remaining
  omega

/-- A tender that passes its checks applies at least 1 and at most what remains (R155, R156). -/
theorem appliedAmount_bounds {k : TenderKind} {amount remaining : Nat} (hr : 1 ≤ remaining) (ha : 1 ≤ amount)
    (h : overTendered k amount remaining = none) :
    1 ≤ appliedAmount k amount remaining ∧ appliedAmount k amount remaining ≤ remaining := by
  cases k with
  | card =>
    have hle : ¬remaining < amount := fun hlt => by simp [overTendered, hlt] at h
    exact ⟨ha, Nat.not_lt.mp hle⟩
  | cash => exact ⟨le_min ha hr, min_le_right _ _⟩
  | voucher => exact ⟨le_min ha hr, min_le_right _ _⟩

theorem takeTender_keepsShares {i : Slot} {j : ShareNo} {index : Nat} {sh : Share} {d : Tender} {s : State}
    (hj : s.shares.get j = .held sh) (h : sh.sound = true → (sh.addTender d).sound = true) :
    KeepsShares s (takeTender i j index sh d s).1 := by
  refine (keepsShares_setShare hj h).same ?_
  unfold takeTender
  dsimp only
  rw [answer_shares]
  split <;> rfl

theorem withOwnSplit_keepsShares {l : Lane} {i : Slot} {s : State} {k : SplitRef → Answer} (h : ∀ r, KeepsShares s (k r).1) :
    KeepsShares s (withOwnSplit l i s k).1 := by
  unfold withOwnSplit
  dsimp only
  iterate 4 (split; · exact .refl s)
  exact h _

theorem tender_keepsShares (l : Lane) (f : TenderFields) (s : State) : KeepsShares s (tender l f s).1 :=
  withTab_keepsShares fun i u => withOwnSplit_keepsShares fun _ => by
    split
    · rename_i j sh k tip hsh _
      obtain ⟨-, -, hj⟩ := shareAt_some hsh
      split
      · exact .refl u
      rename_i hdue
      split
      · exact .refl u
      rename_i hroom
      dsimp only
      split
      · exact .refl u
      rename_i hamount
      split
      · exact .refl u
      · exact .refl u
      · rename_i hover
        refine takeTender_keepsShares hj fun hsound => ?_
        obtain ⟨hpos, hle⟩ := appliedAmount_bounds (Share.remaining_pos hsound hdue) (Nat.one_le_iff_ne_zero.mpr hamount) hover
        exact Share.sound_addTender hsound hpos hle (Nat.not_le.mp hroom)
    · exact .refl u

theorem applyUndo_keepsShares (i : Slot) (k : Nat) (s : State) : KeepsShares s (applyUndo i k s) := by
  unfold applyUndo
  split
  · rename_i j sh hsh
    obtain ⟨-, -, hj⟩ := shareAt_some hsh
    exact (keepsShares_setShare hj Share.sound_undo).same rfl
  · exact .refl s

theorem undoTender_keepsShares (l : Lane) (f : UndoTenderFields) (s : State) : KeepsShares s (undoTender l f s).1 :=
  withTab_keepsShares fun i u => withOwnSplit_keepsShares fun _ => by
    iterate 4 (split; · exact .refl u)
    rcases supervise_cases l i (.undoTender f.share) f.reason u (answer (applyUndo i f.share u) .ok) (answer u .approvalsFull)
      (fun n => [Field.small n]) with ⟨-, h⟩ | ⟨-, -, h⟩ | ⟨-, -, h⟩ <;> rw [h]
    · exact applyUndo_keepsShares i f.share u
    · exact .refl u
    · exact keepsShares_of_same (queueEntry_shares l i _ _ u)

/-- Of the effects of an approval only that of UNDO_TENDER changes a share (R121 to R125). -/
theorem applyAsk_keepsShares (i : Slot) (ask : Ask) (s : State) : KeepsShares s (applyAsk i ask s) := by
  cases ask with
  | voidFired n => exact keepsShares_of_same (applyVoidFired_shares i n s)
  | comp n => exact keepsShares_of_same (applyComp_shares i n s)
  | price n p => exact keepsShares_of_same (applyPrice_shares i n p s)
  | pinClear => exact keepsShares_of_same rfl
  | undoTender k => exact applyUndo_keepsShares i k s

theorem approve_keepsShares (p : Port) (n : Nat) (s : State) : KeepsShares s (approve p n s).1 := by
  unfold approve
  iterate 2 (split; · exact .refl s)
  have hdecide (v : Verdict) (e : Entry) (u : State) : KeepsShares u (decideEntry v e u) :=
    keepsShares_of_same (decideEntry_shares v e u)
  unfold approveEntry
  split
  · split
    · exact (applyAsk_keepsShares _ _ s).trans (hdecide _ _ _)
    · exact hdecide _ _ s
  · exact hdecide _ _ s

/-! ### The rest of settlement (R147, R154, R160 to R166) -/

theorem split_keepsShares (tag : Nat) (l : Lane) (f : SplitFields) (s : State) : KeepsShares s (split tag l f s).1 :=
  withTab_keepsShares fun i u => by
    dsimp only
    iterate 7 (split; · exact .refl u)
    exact acceptSplit_keepsShares l tag i _ _ u

theorem shareView_shares (p : Port) (f : TabPageFields) (s : State) : (shareView p f s).1.shares = s.shares :=
  withTab_shares fun _ _ => by
    dsimp only
    iterate 2 (split; · rfl)
    rfl

theorem dropSplit_keepsShares (l : Lane) (n : Nat) (s : State) : KeepsShares s (dropSplit l n s).1 :=
  withTab_keepsShares fun i u => withOwnSplit_keepsShares fun _ => by
    split
    · exact .refl u
    · exact releaseSplit_keepsShares i u

theorem lapseClaim_keepsShares (n : Nat) (s : State) : KeepsShares s (lapseClaim n s) := by
  unfold lapseClaim
  split
  · exact .refl s
  split
  · exact (loseOwner_keepsShares _ _).after (raiseLanes_shares _ _ s)
  · exact .refl s

theorem adopt_shares (l : Lane) (n : Nat) (s : State) : (adopt l n s).1.shares = s.shares :=
  withTab_shares fun _ _ => by
    dsimp only
    iterate 3 (split; · rfl)
    split
    · split <;> rfl
    · rfl

theorem takeClosed_keepsShares (f : Unit) (s : State) : KeepsShares s (takeClosed f s).1 := by
  unfold takeClosed
  split
  · exact .refl s
  dsimp only
  split
  · exact keepsShares_of_same rfl
  · exact KeepsShares.after (exportTab_keepsShares _ _) rfl

/-! ### The port reset (R152, R163, R170) -/

theorem disown_keepsShares (l : Lane) (s : State) (i : Slot) : KeepsShares s (disown l s i) := by
  unfold disown
  split
  · split
    · exact loseOwner_keepsShares i s
    · exact keepsShares_of_same rfl
  · exact .refl s

theorem disownAll_keepsShares (l : Lane) (is : List Slot) (s : State) : KeepsShares s (is.foldl (disown l) s) := by
  induction is generalizing s with
  | nil => exact .refl s
  | cons i is ih => exact (disown_keepsShares l s i).trans (ih _)

theorem resetPort_keepsShares (l : Lane) (s : State) : KeepsShares s (resetPort l s) := by
  have hleave : KeepsShares s (leaveTabs l (unbind l s)) := keepsShares_of_same rfl
  have h := hleave.trans (disownAll_keepsShares l (List.finRange 128) _)
  unfold resetPort
  dsimp only
  generalize (List.finRange 128).foldl (disown l) (leaveTabs l (unbind l s)) = t at h ⊢
  refine h.same ?_
  split
  · exact returnToken_shares _
  · rfl

theorem changeStanding_keepsShares (l : Lane) (f : SetPortFields) (r : Role) (st : Option StationNo) (s : State) :
    KeepsShares s (changeStanding l f r st s).2 := by
  have h := resetPort_keepsShares l s
  unfold changeStanding
  generalize resetPort l s = t at h ⊢
  refine h.same ?_
  dsimp only
  split
  · rfl
  split
  · rfl
  · exact bindStation_shares _ _ _

theorem setPortRequest_keepsShares (f : SetPortFields) (s : State) : KeepsShares s (setPortRequest f s).1 := by
  unfold setPortRequest
  split
  · split
    · exact changeStanding_keepsShares _ f _ _ s
    · exact keepsShares_of_same (keepStanding_shares _ f _ s)
  · exact .refl s

/-! ### Every command -/

/-- An outcome after which the books of the shares agree if they did before. -/
def EndsPaid (s : State) (o : Host.Outcome State Fault Refusal) : Prop := ∀ t, o = .next t → KeepsShares s t

theorem endsPaid_next {s t : State} (h : KeepsShares s t) : EndsPaid s (.next t) := fun _ e => by
  cases e
  exact h

theorem receive_keepsShares {α : Type} {k : Kind} {p : Port} {n tag : Nat} {body : Body α} {fresh : α → State → Option Lane}
    {block : α → State → Answer} {s : State} (h : ∀ f u, KeepsShares u (block f u).1) :
    EndsPaid s (.next (receive p n s (handle k p tag body fresh block))) := by
  refine endsPaid_next ?_
  rcases receive_handle_cases k p n tag body fresh block s with hs | ⟨f, u, hu, hb⟩
  · exact keepsShares_of_same (shares_of_samePart hs)
  · exact ((keepsShares_of_same (shares_of_samePart hu)).trans (h f u)).same (shares_of_samePart hb)

theorem serve_keepsShares {α : Type} {k : Kind} {c : Codec α} {p : Port} {tag : Nat} {body : Body α} {block : α → State → Answer}
    {s : State} (h : ∀ f u, KeepsShares u (block f u).1) : EndsPaid s (serve k c p tag body block s) := receive_keepsShares h

/-- A request whose block leaves the share store as it is. -/
theorem serve_sameShares {α : Type} {k : Kind} {c : Codec α} {p : Port} {tag : Nat} {body : Body α} {block : α → State → Answer}
    {s : State} (h : ∀ f u, (block f u).1.shares = u.shares) : EndsPaid s (serve k c p tag body block s) :=
  serve_keepsShares fun f u => keepsShares_of_same (h f u)

theorem serveLane_keepsShares {α : Type} {k : Kind} {c : Codec α} {p : Port} {tag : Nat} {body : Body α}
    {block : Lane → α → State → Answer} {s : State} (h : ∀ l f u, KeepsShares u (block l f u).1) :
    EndsPaid s (serveLane k c p tag body block s) :=
  serve_keepsShares fun f u => by
    split
    · exact h _ f u
    · exact .refl u

theorem serveLane_sameShares {α : Type} {k : Kind} {c : Codec α} {p : Port} {tag : Nat} {body : Body α}
    {block : Lane → α → State → Answer} {s : State} (h : ∀ l f u, (block l f u).1.shares = u.shares) :
    EndsPaid s (serveLane k c p tag body block s) := serveLane_keepsShares fun l f u => keepsShares_of_same (h l f u)

theorem serveStation_sameShares {α : Type} {k : Kind} {c : Codec α} {p : Port} {tag : Nat} {body : Body α}
    {block : StationNo → α → State → Answer} {s : State} (h : ∀ st f u, (block st f u).1.shares = u.shares) :
    EndsPaid s (serveStation k c p tag body block s) :=
  serveLane_sameShares fun l f u => by
    split
    · exact h _ f u
    · rfl

theorem happen_keepsShares {effect : State → State} {s : State} (h : KeepsShares s (effect s)) : EndsPaid s (happen effect s) := by
  intro t ht
  obtain ⟨t', ht', hc⟩ := happen_cases effect s
  cases ht.symm.trans ht'
  rcases hc with hc | hc
  · exact keepsShares_of_same (shares_of_samePart hc)
  · exact h.same (shares_of_samePart hc)

/-- A step that the RESET pin holds back and that leaves the share store as it is. -/
theorem unheld_sameShares {s t : State} (h : t.shares = s.shares) : EndsPaid s (.next (if s.resetPin then s else t)) := by
  refine endsPaid_next (keepsShares_of_same ?_)
  split
  · rfl
  · exact h

theorem dropWhen_sameShares (occurs : State → Bool) (p : Port) (n : Nat) (s : State) : EndsPaid s (dropWhen occurs p n s) := by
  refine unheld_sameShares ?_
  split
  · exact (dropFrame_shares p _).trans (clockFrame_shares p n s)
  · rfl

theorem execUnknownKind_sameShares (p : Port) (tag : Nat) (k : KindAndBody) (s : State) :
    EndsPaid s (execUnknownKind p tag k s) := by
  refine endsPaid_next (keepsShares_of_same ?_)
  split
  · have hc := clockFrame_shares p (frameSize (2 + k.body.length)) s
    unfold receive
    split
    · rfl
    dsimp only
    split
    · exact (dropFrame_shares p _).trans hc
    · exact (shares_of_samePart (samePart_sendReply p _ _ _ _)).trans ((huntAgain_shares _ p).trans hc)
  · rfl

/-- No command breaks the books of a share (R153). -/
theorem exec_keepsShares (c : Instr) (s : State) : EndsPaid s (exec c s) := by
  cases c with
  | powerOn => exact endsPaid_next (keepsShares_reset rfl)
  | resetPin => exact endsPaid_next (keepsShares_reset rfl)
  | resetPinAsserted => exact endsPaid_next (keepsShares_reset rfl)
  | reset p tag body => exact serve_keepsShares fun _ _ => keepsShares_reset rfl
  | secondTick => exact unheld_sameShares rfl
  | lateExpiry n => exact happen_keepsShares (keepsShares_of_same (expireLate_shares n s))
  | claimLapse n => exact happen_keepsShares (lapseClaim_keepsShares n s)
  | frameTimeout l => exact dropWhen_sameShares _ _ _ s
  | lengthError p n => exact dropWhen_sameShares (fun _ => !lengthOk n) p 2 s
  | crcMismatch p bytes crc => exact dropWhen_sameShares (fun _ => countedBytes bytes && crc16 bytes ≠ crc) p _ s
  | csDeasserted => exact unheld_sameShares (discardFrame_shares s)
  | badTagOrKind p tag k => exact dropWhen_sameShares (fun _ => tag = 0 || 0x80 ≤ k.kind) p _ s
  | unknownKind p tag k => exact execUnknownKind_sameShares p tag k s
  | transmitListFull l => exact dropWhen_sameShares _ _ _ s
  | officeRequestOverrun => exact unheld_sameShares (overrun_shares s)
  | frameSent l => exact unheld_sameShares rfl
  | replyClockedOut => exact unheld_sameShares rfl
  | startByteReceived b => exact unheld_sameShares (beginFrame_shares b s)
  | openTab p tag body => exact serveLane_sameShares openTab_shares
  | tabView p tag body => exact serve_sameShares (tabView_shares p)
  | addLine p tag body => exact serveLane_sameShares addLine_shares
  | voidLine p tag body => exact serveLane_sameShares voidLine_shares
  | compLine p tag body => exact serveLane_sameShares compLine_shares
  | overridePrice p tag body => exact serveLane_sameShares overridePrice_shares
  | follow p tag body => exact serveLane_sameShares follow_shares
  | unfollow p tag body => exact serveLane_sameShares fun _ _ _ => withTab_shares fun _ _ => rfl
  | setService p tag body => exact serve_sameShares (setService_shares p)
  | unlock p tag body => exact serveLane_sameShares unlock_shares
  | lock p tag body => exact serveLane_sameShares lock_shares
  | setPin p tag body => exact serveLane_sameShares setPin_shares
  | clearLockout p tag body => exact serveLane_sameShares clearLockout_shares
  | fire p tag body => exact serveLane_sameShares fire_shares
  | rail p tag body => exact serveStation_sameShares fun _ _ _ => rfl
  | take p tag body => exact serveStation_sameShares take_shares
  | bump p tag body => exact serveStation_sameShares bump_shares
  | resume p tag body => exact serveStation_sameShares resume_shares
  | recallTicket p tag body => exact serveStation_sameShares recallTicket_shares
  | holdLow p tag body => exact serveStation_sameShares holdLow_shares
  | pause p tag body => exact serve_sameShares (pauseOrOpen_shares .paused p)
  | openStation p tag body => exact serve_sameShares (pauseOrOpen_shares .opened p)
  | stationView p tag body => exact serveStation_sameShares stationView_shares
  | setStation p tag body => exact serve_sameShares setStation_shares
  | passSupervisor p tag body => exact serve_sameShares (passSupervisor_shares p)
  | reclaim p tag body => exact serve_sameShares reclaim_shares
  | approvalList p tag body => exact serve_sameShares (approvalList_shares p)
  | approve p tag body => exact serve_keepsShares (approve_keepsShares p)
  | deny p tag body => exact serve_sameShares (deny_shares p)
  | withdraw p tag body => exact serveLane_sameShares withdraw_shares
  | results p tag body => exact serveLane_sameShares fun _ _ _ => rfl
  | split p tag body => exact serveLane_keepsShares (split_keepsShares tag)
  | splitBegin => exact happen_keepsShares (keepsShares_of_same (takeUp_shares s))
  | splitCompletion => exact happen_keepsShares (complete_keepsShares s)
  | shareView p tag body => exact serve_sameShares (shareView_shares p)
  | tender p tag body => exact serveLane_keepsShares tender_keepsShares
  | undoTender p tag body => exact serveLane_keepsShares undoTender_keepsShares
  | dropSplit p tag body => exact serveLane_keepsShares dropSplit_keepsShares
  | adopt p tag body => exact serveLane_sameShares adopt_shares
  | takeClosed p tag body => exact serve_keepsShares takeClosed_keepsShares
  | loadItem p tag body => exact serve_sameShares loadItem_shares
  | withdrawItem p tag body => exact serve_sameShares withdrawItem_shares
  | loadModifier p tag body => exact serve_sameShares loadModifier_shares
  | setTaxRate p tag body => exact serve_sameShares setTaxRate_shares
  | setGroupPriority p tag body => exact serve_sameShares setGroupPriority_shares
  | setCount p tag body => exact serve_sameShares (setCount_shares p)
  | availability p tag body => exact serve_sameShares availability_shares
  | setPort p tag body => exact receive_keepsShares setPortRequest_keepsShares
  | events p tag body => exact serve_sameShares (events_shares p)
  | setMask p tag body => exact serve_sameShares (setMask_shares p)
  | setClock p tag body => exact serve_sameShares fun _ _ => rfl
  | status p tag body => exact serve_sameShares fun _ _ => rfl

/-- Settles O58: only a split accepted, completed or given up, a tender and its undoing change a share record, and each leaves its
books in agreement. -/
theorem shareBooksAreKept : Obligations.ShareBooksAreKept :=
  kept_of_exec (fun _ _ => id) fun c s t hs ht => (exec_keepsShares c s t ht).books hs

end Sys2Proof.Machine
end

section
/-! SUPPORT. TENDER by the settle owner (R155, R156, R161), and the tab closed by the tender that pays its last share (R158). -/

namespace Sys2Proof.Machine

/-! ### The checks passed (R155) -/

theorem tenderKindOfCode_code (k : TenderKind) : tenderKindOfCode (tenderKindCode k) = some k := by cases k <;> rfl

theorem tenderOperands_eq {f : TenderFields} {k : TenderKind} (hk : f.kind = tenderKindCode k) (htip : f.tip.getD 0 ≤ 99999)
    (hcard : k = .card ∨ f.tip.getD 0 = 0) : tenderOperands f = some (k, f.tip.getD 0) := by
  have hrange : ¬(Config.maxTip < f.tip.getD 0 ∨ (k ≠ .card ∧ 0 < f.tip.getD 0)) := by
    rintro (h | ⟨hne, hpos⟩)
    · exact absurd htip (Nat.not_le.mpr h)
    · exact hcard.elim hne hpos.ne'
  simp only [tenderOperands, hk, tenderKindOfCode_code, if_neg hrange]

/-- A card pays no more than remains, cash and vouchers at most 999,999 over it (R155). -/
theorem overTendered_none {k : TenderKind} {amount remaining : Nat}
    (h : if k = .card then amount ≤ remaining else amount ≤ remaining + 999999) : overTendered k amount remaining = none := by
  cases k with
  | card => exact if_neg (Nat.not_lt.mpr h)
  | cash => exact if_neg (Nat.not_lt.mpr h)
  | voucher => exact if_neg (Nat.not_lt.mpr h)

theorem appliedAmount_eq (k : TenderKind) (amount remaining : Nat) :
    appliedAmount k amount remaining = if k = .card then amount else min amount remaining := by cases k <;> rfl

/-- The tender record of a kind, an amount and a tip on a share (R153, R156). -/
def Share.tenderOf (k : TenderKind) (amount tip : Nat) (sh : Share) : Tender :=
  { kind := k, applied := appliedAmount k amount sh.remaining, tendered := amount, tip := tip }

/-- A TENDER that passes its checks is taken on the share it names (R155). -/
theorem exec_tender {l : Lane} {tag : Nat} {f : TenderFields} {k : TenderKind} {amount tip : Nat} {i : Slot} {r : SplitRef}
    {j : ShareNo} {sh : Share} {s t : State} {body : List Field} {ev : Raised} (h : tillReady l tag s = true)
    (hi : s.findTab f.tab = some i) (hpin : (s.tab i).pin = none ∨ l ∈ (s.tab i).unlocked) (hst : (s.tab i).state = .settling)
    (hsplit : (s.tab i).split = some r) (hx : r.totals ≠ none) (howner : (s.tab i).owner = some l)
    (hsh : s.shareAt (s.tab i) f.share = some (j, sh)) (hoperands : tenderOperands f = some (k, tip)) (hdue : sh.state = .due)
    (hroom : sh.tenders.length < 4) (ha : f.amount = some amount) (hpos : 1 ≤ amount)
    (hover : overTendered k amount sh.remaining = none)
    (hv : takeTender i j f.share sh (sh.tenderOf k amount tip) (s.naming l i)
      = answer ((huntAgain (.lane l) t).raised ev) .ok body)
    (hports : t.ports = s.ports) (ho : t.officeReceiver = s.officeReceiver) :
    exec (.tender (.lane l) tag (.fields f)) s = .next (t.answered (.lane l) tag 0x32 .ok body ev) := by
  refine serve_tab h rfl hi (fun _ => rfl) ?_ hports ho
  have hsh' : (s.naming l i).shareAt ((s.naming l i).tab i) f.share = some (j, sh) := by
    rw [naming_tab, shareAt_named]
    exact hsh
  have hunpaid : sh.state ≠ .paid := by simp [hdue]
  have hroom' : ¬Config.maxTenders ≤ sh.tenders.length := Nat.not_le.mpr hroom
  have hamount : f.amount.getD 0 = amount := by rw [ha]; rfl
  have hsome : amount ≠ 0 := Nat.one_le_iff_ne_zero.mp hpos
  rw [withOwnSplit_owner h hpin hst hsplit hx howner]
  simp only [hsh', hoperands, hunpaid, hroom', hamount, hsome, hover, if_false]
  exact hv

/-! ### The tender taken (R156, R158) -/

theorem allPaid_iff {s : State} {t : Tab} :
    s.allPaid t = true ↔ ∀ j ∈ t.shareRefs, ∀ sh, s.shares.get j = .held sh → sh.state = .paid := by
  simp only [State.allPaid, State.sharesOf, List.all_eq_true, decide_eq_true_eq, List.mem_filterMap]
  constructor
  · intro h j hj sh hsh
    exact h sh ⟨j, hj, by rw [hsh]⟩
  · rintro h sh ⟨j, hj, hsh⟩
    refine h j hj sh ?_
    split at hsh
    · rename_i sh' hsh'
      rw [hsh', Option.some.inj hsh]
    all_goals cases hsh

/-- A tender taken: the share replaced, TAB_CHANGED raised, and the tab closed when every share is PAID (R156). -/
theorem takeTender_eq (i : Slot) (j : ShareNo) (index : Nat) (sh : Share) (d : Tender) (s : State) :
    takeTender i j index sh d s
      = (let u := s.setShare j (.held (sh.addTender d))
         let v := u.raised (toLanes .tabChanged (s.tab i).followers)
         let closes := (sh.addTender d).state = .paid && u.allPaid (s.tab i)
         answer (if closes then closeTab i v else v) .ok (tenderReply index d (sh.addTender d) closes)) := by
  rw [takeTender, touch_eq]
  rfl

/-- While a share is still to pay, a tender leaves its tab SETTLING (R156). -/
theorem takeTender_open {i : Slot} {j : ShareNo} {index : Nat} {sh : Share} {d : Tender} {s : State}
    (h : (s.setShare j (.held (sh.addTender d))).allPaid (s.tab i) = false) :
    takeTender i j index sh d s
      = answer ((s.setShare j (.held (sh.addTender d))).raised (toLanes .tabChanged (s.tab i).followers)) .ok
        (tenderReply index d (sh.addTender d) false) := by
  simp only [takeTender_eq, h, Bool.and_false, Bool.false_eq_true, if_false]

/-- A tab that closes with TAB_CHANGED raised to its followers already (R158). -/
theorem closeTab_told (i : Slot) (s : State) :
    closeTab i (s.raised (toLanes .tabChanged (s.tab i).followers))
      = State.raised (both (toLanes .tabChanged (s.tab i).followers) (toPort .closeWaiting .office))
        { s.setTab i ((s.tab i).whenClosed s.clock) with closeQueue := s.closeQueue ++ [(s.tab i).number] } := by
  let w : State := { s.setTab i ((s.tab i).whenClosed s.clock) with closeQueue := s.closeQueue ++ [(s.tab i).number] }
  have h : closeTab i (s.raised (toLanes .tabChanged (s.tab i).followers))
      = (w.raised (toLanes .tabChanged (s.tab i).followers)).raised
        (both (toLanes .tabChanged (s.tab i).followers) (toPort .closeWaiting .office)) := closeTab_eq i _
  rw [h, raised_raised, ← both_assoc, both_self]

/-- The tender that pays the last share closes its tab (R158). -/
theorem takeTender_closing {i : Slot} {j : ShareNo} {index : Nat} {sh : Share} {d : Tender} {s : State}
    (hpaid : (sh.addTender d).state = .paid) (h : (s.setShare j (.held (sh.addTender d))).allPaid (s.tab i) = true) :
    takeTender i j index sh d s
      = answer (State.raised (both (toLanes .tabChanged (s.tab i).followers) (toPort .closeWaiting .office))
          { (s.setShare j (.held (sh.addTender d))).setTab i ((s.tab i).whenClosed s.clock) with
            closeQueue := s.closeQueue ++ [(s.tab i).number] }) .ok
        (tenderReply index d (sh.addTender d) true) := by
  simp only [takeTender_eq, h, hpaid, decide_true, Bool.and_self, if_true]
  rw [← State.setShare_tab s j (.held (sh.addTender d)), closeTab_told]
  rfl

/-! ### The statements -/

theorem Tab.shareRefs_split {t : Tab} {r : SplitRef} (h : t.split = some r) : t.shareRefs = r.refs := by rw [Tab.shareRefs, h]

theorem Tab.named_whenClosed (p : Port) (clock : Nat) (t : Tab) : (t.named p).whenClosed clock = t.whenClosed clock := by
  unfold Tab.named
  split <;> rfl

/-- A DUE share with a tender appended (R156). -/
theorem Share.addTender_due {sh : Share} (h : sh.state = .due) (d : Tender) :
    sh.addTender d = { sh with
      paid := sh.paid + d.applied, tenders := sh.tenders ++ [d]
      state := if sh.paid + d.applied = sh.figures.due then .paid else .due } := by
  rw [← h]
  rfl

/-- Settles O49: the other share that is DUE keeps the tab open. -/
theorem tenderPaysShare : Obligations.TenderPaysShare := by
  intro l tag f k amount i r j j' sh other s hready hi hpin hst hsplit hx howner hsh hk htip hcard hdue hroom ha hpos
    remaining hover hj' hother hotherdue hne applied sh'
  let d := sh.tenderOf k amount (f.tip.getD 0)
  have happlied : d.applied = applied := appliedAmount_eq k amount sh.remaining
  have hadd : sh.addTender d = sh' := by
    rw [Share.addTender_due hdue, happlied]
    simp only [d, Share.tenderOf, sh', appliedAmount_eq]
    rfl
  have hopen : ((s.naming l i).setShare j (.held (sh.addTender d))).allPaid ((s.naming l i).tab i) = false := by
    rw [← Bool.not_eq_true, allPaid_iff, naming_tab, Tab.named_shareRefs, Tab.shareRefs_split hsplit]
    intro hall
    have hstands : ((s.naming l i).setShare j (.held (sh.addTender d))).shares.get j' = .held other :=
      (get_set_ne s.shares _ hne).trans hother
    exact absurd (hall j' hj' other hstands) (by simp [hotherdue])
  refine exec_tender (t := (s.setTab i ((s.tab i).named (.lane l))).setShare j (.held sh'))
    hready hi hpin hst hsplit hx howner hsh (tenderOperands_eq hk htip hcard) hdue hroom ha hpos (overTendered_none hover) ?_ rfl rfl
  rw [takeTender_open hopen, hadd, naming_tab, Tab.named_followers, tenderReply, overage, happlied]
  rfl

/-- Settles O50: with every other share PAID, the tender that reaches the due closes the tab. -/
theorem lastTenderClosesTab : Obligations.LastTenderClosesTab := by
  intro l tag f amount i r j sh s hready hi hpin hst hsplit hx howner hsh hk htip hdue hroom ha hpos hlast hothers
  let d := sh.tenderOf .card amount 0
  let paidUp : Share :=
    { sh with
      paid := sh.figures.due
      tenders := sh.tenders ++ [{ kind := .card, applied := amount, tendered := amount, tip := 0 }], state := .paid }
  have hoperands : tenderOperands f = some (.card, 0) := by
    rw [tenderOperands_eq hk (by simp [htip]) (.inl rfl), htip]
    rfl
  have hadd : sh.addTender d = paidUp := by
    rw [Share.addTender_due hdue, show d.applied = amount from rfl, if_pos hlast, hlast]
    rfl
  have hover : overTendered .card amount sh.remaining = none :=
    overTendered_none (show amount ≤ sh.figures.due - sh.paid by omega)
  have hall : ((s.naming l i).setShare j (.held (sh.addTender d))).allPaid ((s.naming l i).tab i) = true := by
    rw [allPaid_iff, naming_tab, Tab.named_shareRefs, Tab.shareRefs_split hsplit]
    intro m hm x hmx
    by_cases he : m = j
    · subst he
      rw [State.setShare_shares, get_set_self, hadd] at hmx
      cases hmx
      rfl
    · exact hothers m x hm he ((get_set_ne s.shares _ he).symm.trans hmx)
  refine exec_tender
    (t := { (s.setShare j (.held paidUp)).setTab i ((s.tab i).whenClosed s.clock) with
      closeQueue := s.closeQueue ++ [(s.tab i).number] })
    hready hi hpin hst hsplit hx howner hsh hoperands hdue hroom ha hpos hover ?_ rfl rfl
  have hreply : tenderReply f.share d paidUp true
      = [Field.small f.share, Field.amount amount, Field.amount 0, Field.amount 0, Field.amount sh.figures.due,
        Field.amount 0, Field.code 1, Field.flag true] := by
    simp [tenderReply, overage, d, paidUp, Share.tenderOf, appliedAmount, Share.remaining, shareStateCode]
  rw [takeTender_closing (by rw [hadd]) hall, hadd, hreply, naming_tab, Tab.named_followers, Tab.named_number,
    Tab.named_whenClosed]
  have hset := naming_setTab l i (s.setShare j (.held paidUp)) ((s.tab i).whenClosed s.clock)
  exact congrArg (fun u => answer (State.raised _ { u with closeQueue := s.closeQueue ++ [(s.tab i).number] }) _ _) hset

end Sys2Proof.Machine
end

section
/-! SUPPORT. Room: what an operation leaves of the waiting commands (the model's own queue), of each lane's transmit list (R167) and
of the lists with a capacity (R27, R45, R85, R116, R118, R129, R149); one rule per operation that blocks share. -/

namespace Sys2Proof.Machine

/-! ### A lane's transmit list (R167) -/

/-- The frames a lane has to send, with the withheld reply of an outstanding SPLIT. -/
def PortEntry.load (e : PortEntry) : Nat := e.transmit.length + if e.outstanding.isSome then 1 else 0

theorem roomy_iff (e : PortEntry) : e.roomy = true ↔ e.load + (if e.pendingSet = 0 then 1 else 0) ≤ 8 := by
  simp [PortEntry.roomy, PortEntry.load]

/-- An entry changed to one with no more to send and no pending set emptied, or to one with so little to send that a reply and a
notice find room. -/
def PortEntry.NoFuller (e e' : PortEntry) : Prop := e'.load ≤ 6 ∨ (e'.load ≤ e.load ∧ (e'.pendingSet = 0 → e.pendingSet = 0))

theorem PortEntry.NoFuller.refl (e : PortEntry) : e.NoFuller e := .inr ⟨le_rfl, id⟩

theorem PortEntry.NoFuller.of_eq {e e' : PortEntry} (hl : e'.load = e.load) (hp : e'.pendingSet = e.pendingSet) : e.NoFuller e' :=
  .inr ⟨hl.le, fun h => hp ▸ h⟩

theorem PortEntry.NoFuller.trans {a b c : PortEntry} (h : a.NoFuller b) (h' : b.NoFuller c) : a.NoFuller c := by
  rcases h' with hc | ⟨hl', hp'⟩
  · exact .inl hc
  rcases h with hb | ⟨hl, hp⟩
  · exact .inl (hl'.trans hb)
  · exact .inr ⟨hl'.trans hl, hp ∘ hp'⟩

theorem PortEntry.NoFuller.light {a b : PortEntry} (h : a.NoFuller b) (ha : a.load ≤ 6) : b.load ≤ 6 :=
  h.elim id fun ⟨hl, _⟩ => hl.trans ha

/-- Events latched empty no pending set (R179). -/
theorem PortEntry.NoFuller.latched (e : PortEntry) (r : EventSet) : e.NoFuller { e with events := e.events ||| r } := by
  refine .inr ⟨le_rfl, fun h => ?_⟩
  simp only [PortEntry.pendingSet, BitVec.and_or_distrib_right] at h
  exact (BitVec.or_eq_zero_iff.mp h).1

/-! ### Lists with a capacity -/

/-- The lists of a station within their capacities (R85). -/
def Station.Fits (x : Station) : Prop := x.queue.length ≤ 64 ∧ x.stack.length ≤ 2 ∧ x.recalls.length ≤ 8

/-- The lists of a tab within their capacities (R27, R45). -/
def Tab.Fits (t : Tab) : Prop := t.lines.length ≤ 64 ∧ t.followers.length ≤ 4

/-- An approval queue within its capacity, each entry with a number of its own (R116, R118). -/
def EntriesFit (es : List Entry) : Prop := es.length ≤ 16 ∧ (es.map Entry.number).Nodup

theorem Station.Fits.of_le {x y : Station} (h : x.Fits) (hq : y.queue.length ≤ x.queue.length)
    (hs : y.stack.length ≤ x.stack.length) (hr : y.recalls.length ≤ x.recalls.length) : y.Fits :=
  ⟨hq.trans h.1, hs.trans h.2.1, hr.trans h.2.2⟩

theorem Tab.Fits.of_le {t u : Tab} (h : t.Fits) (hl : u.lines.length ≤ t.lines.length)
    (hf : u.followers.length ≤ t.followers.length) : u.Fits :=
  ⟨hl.trans h.1, hf.trans h.2⟩

theorem EntriesFit.filter {es : List Entry} (h : EntriesFit es) (p : Entry → Bool) : EntriesFit (es.filter p) :=
  ⟨(List.length_filter_le _ _).trans h.1, h.2.sublist (List.Sublist.map _ List.filter_sublist)⟩

/-! ### A change that keeps room -/

/-- A change of state that leaves the waiting commands as they are, no lane with more to send, and every list within its capacity
that was so before. -/
structure KeepsRoom (s t : State) : Prop where
  pending : t.pending = s.pending
  ports : ∀ l, (s.port l).NoFuller (t.port l)
  stations : ∀ st, (s.station st).Fits → (t.station st).Fits
  tabs : ∀ i, (s.tab i).Fits → (t.tab i).Fits
  approvals : EntriesFit s.approvals → EntriesFit t.approvals
  results : ∀ l, (s.resultsOf l).length ≤ 4 → (t.resultsOf l).length ≤ 4
  waiting : s.waiting.length ≤ 3 → t.waiting.length ≤ 3

theorem KeepsRoom.refl (s : State) : KeepsRoom s s := ⟨rfl, fun _ => .refl _, fun _ => id, fun _ => id, id, fun _ => id, id⟩

theorem KeepsRoom.trans {s t u : State} (h : KeepsRoom s t) (h' : KeepsRoom t u) : KeepsRoom s u where
  pending := h'.pending.trans h.pending
  ports l := (h.ports l).trans (h'.ports l)
  stations st := h'.stations st ∘ h.stations st
  tabs i := h'.tabs i ∘ h.tabs i
  approvals := h'.approvals ∘ h.approvals
  results l := h'.results l ∘ h.results l
  waiting := h'.waiting ∘ h.waiting

/-- What `KeepsRoom` reads of a state. -/
def State.listed (s : State) :
    List Instr × Vector PortEntry 16 × Vector Station 8 × Vector Tab 128 × List Entry × Vector (List Result) 16 × List SplitJob :=
  (s.pending, s.ports, s.stations, s.tabs, s.approvals, s.results, s.waiting)

/-- A change outside the lists of the part. -/
theorem keepsRoom_of_same {s t : State} (h : t.listed = s.listed) : KeepsRoom s t := by
  simp only [State.listed, Prod.mk.injEq] at h
  obtain ⟨hpend, hports, hst, htabs, happr, hres, hwait⟩ := h
  have hport (l : Lane) : t.port l = s.port l := congrArg (Vector.get · l) hports
  have hstation (st : StationNo) : t.station st = s.station st := congrArg (Vector.get · st) hst
  have htab (i : Slot) : t.tab i = s.tab i := congrArg (Vector.get · i) htabs
  have hresults (l : Lane) : t.resultsOf l = s.resultsOf l := congrArg (Vector.get · l) hres
  exact ⟨hpend, fun l => hport l ▸ .refl _, fun st => hstation st ▸ id, fun i => htab i ▸ id, happr ▸ id,
    fun l => hresults l ▸ id, hwait ▸ id⟩

theorem KeepsRoom.same {s t u : State} (h : KeepsRoom s t) (h' : u.listed = t.listed) : KeepsRoom s u :=
  h.trans (keepsRoom_of_same h')

theorem KeepsRoom.lists {s t : State} (h : KeepsRoom s t) (hs : ListsHold s) : ListsHold t := by
  obtain ⟨hst, htab, hlen, hnodup, hres, hwait⟩ := hs
  obtain ⟨hlen', hnodup'⟩ := h.approvals ⟨hlen, hnodup⟩
  exact ⟨fun st => h.stations st (hst st), fun i => h.tabs i (htab i), hlen', hnodup', fun l => h.results l (hres l),
    h.waiting hwait⟩

/-! ### Records replaced -/

theorem KeepsRoom.setTab {s t : State} (h : KeepsRoom s t) {i : Slot} {u : Tab} (hu : (t.tab i).Fits → u.Fits) :
    KeepsRoom s (t.setTab i u) :=
  h.trans
    { KeepsRoom.refl t with
      tabs := fun j hj => by
        rw [State.setTab_tab]
        split
        · subst_vars; exact hu hj
        · exact hj }

theorem KeepsRoom.modifyTab {s t : State} (h : KeepsRoom s t) {i : Slot} {f : Tab → Tab}
    (hf : (t.tab i).Fits → (f (t.tab i)).Fits) : KeepsRoom s (t.modifyTab i f) := h.setTab hf

/-- A tab's record replaced by one with no more lines and the same followers. -/
theorem KeepsRoom.modifyLines {s t : State} (h : KeepsRoom s t) {i : Slot} {f : Tab → Tab}
    (hl : (f (t.tab i)).lines.length ≤ (t.tab i).lines.length) (hf : (f (t.tab i)).followers = (t.tab i).followers) :
    KeepsRoom s (t.modifyTab i f) := h.setTab fun ht => ht.of_le hl (congrArg List.length hf).le

theorem KeepsRoom.setStation {s t : State} (h : KeepsRoom s t) {st : StationNo} {x : Station}
    (hx : (t.station st).Fits → x.Fits) : KeepsRoom s (t.setStation st x) :=
  h.trans
    { KeepsRoom.refl t with
      stations := fun st' hs => by
        rw [State.setStation_station]
        split
        · subst_vars; exact hx hs
        · exact hs }

theorem KeepsRoom.modifyStation {s t : State} (h : KeepsRoom s t) {st : StationNo} {f : Station → Station}
    (hf : (t.station st).Fits → (f (t.station st)).Fits) : KeepsRoom s (t.modifyStation st f) := h.setStation hf

theorem KeepsRoom.setPort {s t : State} (h : KeepsRoom s t) {l : Lane} {e : PortEntry} (he : (t.port l).NoFuller e) :
    KeepsRoom s (t.setPort l e) :=
  h.trans
    { KeepsRoom.refl t with
      ports := fun m => by
        rw [State.setPort_port]
        split
        · subst_vars; exact he
        · exact .refl _ }

/-! ### Events -/

theorem KeepsRoom.raised {s t : State} (h : KeepsRoom s t) (r : Raised) : KeepsRoom s (t.raised r) :=
  h.trans { KeepsRoom.refl t with ports := fun l => by rw [raised_port]; exact .latched _ _ }

theorem KeepsRoom.touch {s t : State} (h : KeepsRoom s t) (i : Slot) : KeepsRoom s (touch i t) := by
  rw [touch_eq]
  exact h.raised _

theorem KeepsRoom.raiseLanes {s t : State} (h : KeepsRoom s t) (k : EventKind) (ls : List Lane) :
    KeepsRoom s (raiseLanes k ls t) := by
  rw [raiseLanes_eq]
  exact h.raised _

theorem KeepsRoom.raisePort {s t : State} (h : KeepsRoom s t) (k : EventKind) (p : Port) : KeepsRoom s (raisePort k p t) := by
  rw [raisePort_eq]
  exact h.raised _

theorem KeepsRoom.announceQueue {s t : State} (h : KeepsRoom s t) : KeepsRoom s (announceQueue t) := by
  rw [announceQueue_eq]
  exact h.raised _

theorem KeepsRoom.updateItem {s t : State} (h : KeepsRoom s t) (m : ItemNo) (it : Item) : KeepsRoom s (updateItem m it t) := by
  rw [updateItem_eq]
  have hset : KeepsRoom s (t.setItem m it) := h.same rfl
  exact hset.raised _

theorem KeepsRoom.recomputeRail {s t : State} (h : KeepsRoom s t) (st : StationNo) : KeepsRoom s (recomputeRail st t) := by
  rw [recomputeRail_eq]
  have hrail : KeepsRoom s (t.withRail st) := h.setStation id
  exact hrail.raised _

theorem KeepsRoom.recomputeRails {s t : State} (h : KeepsRoom s t) (sts : List StationNo) :
    KeepsRoom s (recomputeRails sts t) := by
  induction sts generalizing t with
  | nil => exact h
  | cons st sts ih => exact ih (h.recomputeRail st)

/-! ### Entries ended and queued (R116 to R118, R129) -/

theorem pushResult_length (r : Result) (rs : List Result) : (pushResult r rs).length ≤ 4 := by
  simp only [pushResult, Config.resultSize, List.length_drop]
  omega

theorem KeepsRoom.closeEntry {s t : State} (h : KeepsRoom s t) (v : Verdict) (e : Entry) : KeepsRoom s (closeEntry v t e) := by
  rw [closeEntry_eq]
  refine KeepsRoom.raised (h.trans ?_) _
  refine { KeepsRoom.refl t with approvals := fun ha => ha.filter _, results := fun l hl => ?_ }
  unfold State.resultsOf
  by_cases hr : l = e.requester
  · subst hr
    rw [get_set_self]
    exact pushResult_length _ _
  · rw [get_set_ne _ _ hr]
    exact hl

theorem KeepsRoom.endStale {s t : State} (h : KeepsRoom s t) (tab : Nat) (which : Ask → Bool) :
    KeepsRoom s (endStale tab which t) := by
  unfold Machine.endStale
  generalize t.approvals.filter _ = es
  induction es generalizing t with
  | nil => exact h
  | cons e es ih => exact ih (h.closeEntry _ e)

theorem Tab.markLine_sizes (t : Tab) (n : Nat) (q : Option Nat) :
    (t.markLine n q).lines.length = t.lines.length ∧ (t.markLine n q).followers = t.followers := by
  unfold Tab.markLine
  split
  · exact ⟨List.length_set, rfl⟩
  · exact ⟨rfl, rfl⟩

theorem KeepsRoom.markLine {s t : State} (h : KeepsRoom s t) (i : Slot) (n : Nat) (q : Option Nat) :
    KeepsRoom s (Machine.touch i (t.modifyTab i fun tab => tab.markLine n q)) :=
  (h.modifyLines (Tab.markLine_sizes _ n q).1.le (Tab.markLine_sizes _ n q).2).touch i

theorem KeepsRoom.decideEntry {s t : State} (h : KeepsRoom s t) (v : Verdict) (e : Entry) : KeepsRoom s (decideEntry v e t) := by
  refine KeepsRoom.closeEntry ?_ v e
  unfold clearPending
  split
  · exact h.markLine _ _ _
  · exact h

/-- The next approval number is borne by no entry, whatever the counter (R118): there are more numbers than entries. -/
theorem nextApproval_fresh {s : State} (h : s.approvals.length < 16) : s.nextApproval ∉ s.approvals.map Entry.number := by
  intro hused
  have hall (m : Fin 255) : m.val + 1 ∈ (s.approvals.map Entry.number).toFinset := by
    obtain ⟨k, hk, e⟩ := nextNumber_reaches (top := Config.maxApprovalNumber) (m := m.val + 1) s.approvalCounter (by omega)
      (by have := m.isLt; unfold Config.maxApprovalNumber; omega)
    have hpassed := firstUnused_used (used := fun n => s.approvals.any fun e => e.number = n)
      (top := Config.maxApprovalNumber) (by simpa [State.nextApproval] using hused) hk
    rw [e] at hpassed
    simpa using hpassed
  have hcard := Finset.card_le_card_of_injOn (s := Finset.univ) (fun m : Fin 255 => m.val + 1) (fun m _ => hall m)
    fun a _ b _ hab => Fin.ext (Nat.succ_injective hab)
  have hlist := List.toFinset_card_le (s.approvals.map Entry.number)
  simp only [Finset.card_univ, Fintype.card_fin, List.length_map] at hcard hlist
  omega

theorem EntriesFit.append {es : List Entry} {e : Entry} (h : EntriesFit es) (hroom : es.length < 16)
    (hfresh : e.number ∉ es.map Entry.number) : EntriesFit (es ++ [e]) := by
  refine ⟨by simpa using hroom, ?_⟩
  rw [List.map_append, List.nodup_append]
  exact ⟨h.2, by simp, fun a ha b hb hab => hfresh (by simp_all)⟩

theorem KeepsRoom.queueEntry {s : State} (l : Lane) (i : Slot) (ask : Ask) (reason : Nat) (hroom : s.approvals.length < 16) :
    KeepsRoom s (queueEntry l i ask reason s) := by
  unfold Machine.queueEntry
  dsimp only
  refine KeepsRoom.raisePort ?_ _ _
  have h (e : Entry) (he : e.number = s.nextApproval) (c : Nat) :
      KeepsRoom s { s with approvals := s.approvals ++ [e], approvalCounter := c } :=
    { KeepsRoom.refl s with approvals := fun ha => ha.append hroom (he ▸ nextApproval_fresh hroom) }
  split
  · exact (h _ rfl _).markLine i _ _
  · exact h _ rfl _

/-- A request that needs the supervisor keeps room where its application and its refusal do (R117). -/
theorem supervise_keepsRoom {l : Lane} {i : Slot} {ask : Ask} {reason : Nat} {s : State} {applied full : Answer}
    {queuedBody : Nat → List Field} (ha : KeepsRoom s applied.1) (hf : KeepsRoom s full.1) :
    KeepsRoom s (supervise l i ask reason s applied full queuedBody).1 := by
  rcases supervise_cases l i ask reason s applied full queuedBody with ⟨-, h⟩ | ⟨-, -, h⟩ | ⟨-, hroom, h⟩ <;> rw [h]
  · exact ha
  · exact hf
  · exact .queueEntry l i ask reason hroom

/-- A request that names a tab keeps room where its continuation does (R24, R161). -/
theorem withTab_keepsRoom {p : Port} {n : Nat} {s : State} {k : Slot → State → Answer} {missing : List Field}
    (h : ∀ i u, (∀ l, u.port l = s.port l) → KeepsRoom u (k i u).1) : KeepsRoom s (withTab p n s k missing).1 := by
  rw [withTab_eq]
  split
  · exact .refl s
  · refine KeepsRoom.trans ((KeepsRoom.refl s).setTab fun ht => ?_) (h _ _ fun _ => rfl)
    exact ht.of_le (by rw [Tab.named_lines]) (by rw [Tab.named_followers])

end Sys2Proof.Machine
end

section
/-! SUPPORT. Every request's block keeps room, in the order of the model's files: approvals, catalogue, FIRE, tabs and protection. -/

namespace Sys2Proof.Machine

/-! ### Approvals (R110 to R130) -/

theorem passSupervisor_keepsRoom (p : Port) (n : Nat) (s : State) : KeepsRoom s (passSupervisor p n s).1 := by
  unfold passSupervisor
  iterate 4 (split; · exact .refl s)
  have hgiven (l : Lane) : KeepsRoom s (giveToken (.lane l) s) := keepsRoom_of_same rfl
  exact (((hgiven _).raisePort _ _).raisePort _ _).announceQueue

theorem reclaim_keepsRoom (f : Unit) (s : State) : KeepsRoom s (reclaim f s).1 := by
  unfold reclaim
  split
  · exact .refl s
  · have hgiven : KeepsRoom s (giveToken .office s) := keepsRoom_of_same rfl
    exact (hgiven.raiseLanes _ _).announceQueue

theorem approvalList_keepsRoom (p : Port) (start : Nat) (s : State) : KeepsRoom s (approvalList p start s).1 := by
  unfold approvalList
  iterate 2 (split; · exact .refl s)
  exact .refl s

theorem removeFrom_length_le (number line : Nat) (ts : List Ticket) : (removeFrom number line ts).length ≤ ts.length :=
  List.length_filterMap_le _ _

theorem Station.Fits.removeLine {x : Station} (h : x.Fits) (number line : Nat) : (x.removeLine number line).Fits :=
  h.of_le (removeFrom_length_le _ _ _) (removeFrom_length_le _ _ _) le_rfl

theorem KeepsRoom.applyVoidFired {s t : State} (h : KeepsRoom s t) (i : Slot) (n : Nat) : KeepsRoom s (applyVoidFired i n t) := by
  unfold Machine.applyVoidFired
  iterate 2 (split; · exact h)
  rename_i st _ tk _
  have hremoved : KeepsRoom s (t.modifyStation st (Station.removeLine tk.number n)) := h.modifyStation fun hx => hx.removeLine _ _
  dsimp only
  refine KeepsRoom.touch (KeepsRoom.modifyLines ?_ List.length_set.le rfl) i
  split
  · exact (hremoved.modifyTab (by exact id)).raiseLanes _ _
  · exact hremoved

theorem applyAsk_keepsRoom (i : Slot) (ask : Ask) (s : State) : KeepsRoom s (applyAsk i ask s) := by
  cases ask with
  | voidFired n => exact (KeepsRoom.refl s).applyVoidFired i n
  | comp n =>
    simp only [applyAsk, applyComp]
    split
    · split
      · exact .refl s
      · exact ((KeepsRoom.refl s).modifyLines List.length_set.le rfl).touch i
    · exact .refl s
  | price n p =>
    simp only [applyAsk, applyPrice]
    split
    · exact ((KeepsRoom.refl s).modifyLines List.length_set.le rfl).touch i
    · exact .refl s
  | pinClear => exact ((KeepsRoom.refl s).modifyTab (by exact id)).touch i
  | undoTender k =>
    simp only [applyAsk, applyUndo]
    split
    · rename_i j sh _
      have hundone : KeepsRoom s (s.setShare j (.held sh.undo)) := keepsRoom_of_same rfl
      exact hundone.touch i
    · exact .refl s

theorem approve_keepsRoom (p : Port) (n : Nat) (s : State) : KeepsRoom s (approve p n s).1 := by
  unfold approve
  iterate 2 (split; · exact .refl s)
  unfold approveEntry
  split
  · split
    · exact (applyAsk_keepsRoom _ _ s).decideEntry _ _
    · exact (KeepsRoom.refl s).decideEntry _ _
  · exact (KeepsRoom.refl s).decideEntry _ _

theorem deny_keepsRoom (p : Port) (n : Nat) (s : State) : KeepsRoom s (deny p n s).1 := by
  unfold deny
  iterate 2 (split; · exact .refl s)
  exact (KeepsRoom.refl s).decideEntry _ _

theorem withdraw_keepsRoom (l : Lane) (n : Nat) (s : State) : KeepsRoom s (withdraw l n s).1 := by
  unfold withdraw
  iterate 2 (split; · exact .refl s)
  exact (KeepsRoom.refl s).decideEntry _ _

/-- A lane's results emptied. -/
theorem KeepsRoom.emptyResults {s t : State} (h : KeepsRoom s t) (l : Lane) :
    KeepsRoom s { t with results := t.results.set l [] } :=
  h.trans
    { KeepsRoom.refl t with
      results := fun m hm => by
        unfold State.resultsOf
        by_cases hl : m = l
        · subst hl
          rw [get_set_self]
          exact Nat.zero_le 4
        · rw [get_set_ne _ _ hl]
          exact hm }

theorem results_keepsRoom (l : Lane) (f : Unit) (s : State) : KeepsRoom s (results l f s).1 := (KeepsRoom.refl s).emptyResults l

/-! ### The catalogue (R3 to R10, R18) -/

theorem loadItem_keepsRoom (f : LoadItemFields) (s : State) : KeepsRoom s (loadItem f s).1 := by
  unfold loadItem
  split
  · split
    · exact .refl s
    · exact (KeepsRoom.refl s).updateItem _ _
  · exact .refl s

theorem withdrawItem_keepsRoom (n : Nat) (s : State) : KeepsRoom s (withdrawItem n s).1 := by
  unfold withdrawItem
  split
  · exact .refl s
  split
  · exact .refl s
  · exact .refl s
  · exact (KeepsRoom.refl s).updateItem _ _

theorem loadModifier_keepsRoom (f : LoadModifierFields) (s : State) : KeepsRoom s (loadModifier f s).1 := by
  unfold loadModifier
  iterate 2 (split; · exact .refl s)
  exact keepsRoom_of_same rfl

theorem setTaxRate_keepsRoom (f : SetTaxRateFields) (s : State) : KeepsRoom s (setTaxRate f s).1 := by
  unfold setTaxRate
  iterate 2 (split; · exact .refl s)
  exact keepsRoom_of_same rfl

theorem setGroupPriority_keepsRoom (f : SetGroupPriorityFields) (s : State) : KeepsRoom s (setGroupPriority f s).1 := by
  have hset (ps : Vector Priority 8) : KeepsRoom s { s with priorities := ps } := keepsRoom_of_same rfl
  unfold setGroupPriority
  split
  · dsimp only [answer]
    exact (hset _).recomputeRails allStations
  · exact .refl s

theorem setCount_keepsRoom (p : Port) (f : SetCountFields) (s : State) : KeepsRoom s (setCount p f s).1 := by
  unfold setCount
  split
  · exact .refl s
  dsimp only
  split
  · exact .refl s
  split
  · exact (KeepsRoom.refl s).updateItem _ _
  · exact .refl s

theorem availability_keepsRoom (first : Nat) (s : State) : KeepsRoom s (availability first s).1 := by
  unfold availability
  split <;> exact .refl s

/-! ### FIRE (R68 to R77) -/

/-- What a FIRE leaves besides its tickets: the lines of one tab, as many as before, and the items. -/
theorem createTicket_keepsRoom (i : Slot) (s : State) (d : Draft) (hq : (s.station d.station).queue.length < 64) :
    KeepsRoom s (createTicket i s d) := by
  have hlines (ns : List Nat) (t : State) (h : KeepsRoom s t) : KeepsRoom s (ns.foldl (fireLine i s.nextTicket) t) := by
    induction ns generalizing t with
    | nil => exact h
    | cons n ns ih =>
      refine ih _ ?_
      rcases fireLine_cases i s.nextTicket t n with ⟨e, -⟩ | ⟨x, -, -, e⟩ <;> rw [e]
      · exact h
      · exact KeepsRoom.setTab (t := t.setItem _ _) (h.same rfl) fun ht => ht.of_le List.length_set.le le_rfl
  refine hlines d.lines _ (KeepsRoom.modifyTab ?_ (by exact id))
  have hcounted : KeepsRoom s
      { s with ticketCounter := nextNumber Config.maxTicketNumber s.nextTicket, fireSeq := (s.fireSeq + 1) % Config.wrap32 } :=
    keepsRoom_of_same rfl
  refine hcounted.modifyStation fun hx => ⟨?_, hx.2⟩
  rw [List.length_append]
  exact hq

/-- The tickets of a request find room where the request counted them (R73). -/
theorem createTickets_keepsRoom (i : Slot) (ds : List Draft) (s : State)
    (hq : ∀ d ∈ ds, (s.station d.station).queue.length + (ds.filter fun e => e.station = d.station).length ≤ 64) :
    KeepsRoom s (createTickets i ds s).1 := by
  induction ds generalizing s with
  | nil => exact .refl s
  | cons d ds ih =>
    refine (createTicket_keepsRoom i s d ?_).trans (ih _ fun e he => ?_)
    · have h := hq d List.mem_cons_self
      rw [List.filter_cons_of_pos (by simp), List.length_cons] at h
      omega
    · have h := hq e (List.mem_cons_of_mem d he)
      rw [createTicket_station]
      by_cases hd : d.station = e.station
      · rw [List.filter_cons_of_pos (by simpa using hd), List.length_cons] at h
        simp only [hd, if_true, List.length_append, List.length_singleton]
        omega
      · rw [List.filter_cons_of_neg (by simpa using hd)] at h
        simpa [hd] using h

theorem overfull_none {s : State} {ds : List Draft} (h : overfull s ds = none) {d : Draft} (hd : d ∈ ds) :
    (s.station d.station).queue.length + (ds.filter fun e => e.station = d.station).length ≤ 64 := by
  have hroom := List.find?_eq_none.mp h d.station (List.mem_finRange _)
  have hpos : 0 < (ds.filter fun e => e.station = d.station).length :=
    List.length_pos_of_mem (List.mem_filter.mpr ⟨hd, by simp⟩)
  simp only [hpos, decide_true, Bool.true_and, decide_eq_true_eq, not_lt] at hroom
  exact hroom

theorem fire_keepsRoom (l : Lane) (f : FireFields) (s : State) : KeepsRoom s (fire l f s).1 :=
  withTab_keepsRoom fun i u _ => by
    dsimp only
    iterate 6 (split; · exact .refl u)
    split
    · exact .refl u
    · rename_i hroom
      exact ((createTickets_keepsRoom i _ u fun _ => overfull_none hroom).recomputeRails _).touch i

/-! ### Tabs (R25 to R47) -/

theorem openTab_keepsRoom (l : Lane) (f : OpenTabFields) (s : State) : KeepsRoom s (openTab l f s).1 := by
  unfold openTab
  iterate 2 (split; · exact .refl s)
  rename_i i _ _
  have hopened : KeepsRoom s (s.setTab i (openedTab s.nextTabNumber l f s.clock)) :=
    (KeepsRoom.refl s).setTab fun _ => ⟨Nat.zero_le 64, Nat.le_of_ble_eq_true rfl⟩
  exact hopened.same rfl

theorem tabView_keepsRoom (p : Port) (f : TabPageFields) (s : State) : KeepsRoom s (tabView p f s).1 :=
  withTab_keepsRoom fun _ u _ => by split <;> exact .refl u

theorem addLine_keepsRoom (l : Lane) (f : AddLineFields) (s : State) : KeepsRoom s (addLine l f s).1 :=
  withTab_keepsRoom fun i u _ => by
    dsimp only
    iterate 2 (split; · exact .refl u)
    split
    · exact .refl u
    rename_i hroom
    iterate 5 (split; · exact .refl u)
    have hlt : (u.tab i).lines.length < 64 := Nat.not_le.mp hroom
    refine KeepsRoom.touch (KeepsRoom.updateItem (KeepsRoom.setTab (.refl u) ?_) _ _) i
    exact fun ht => ⟨by simpa using hlt, ht.2⟩

theorem strikeEntered_keepsRoom (i : Slot) (n : Nat) (x : Line) (s : State) : KeepsRoom s (strikeEntered i n x s) :=
  (((KeepsRoom.refl s).modifyLines List.length_set.le rfl).updateItem _ _).touch i

theorem pullBack_keepsRoom (i : Slot) (n : Nat) (x : Line) (st : StationNo) (tk : Ticket) (s : State) :
    KeepsRoom s (pullBack i n x st tk s) := by
  have hremoved : KeepsRoom s (s.modifyStation st (Station.removeLine tk.number n)) :=
    (KeepsRoom.refl s).modifyStation fun hx => hx.removeLine _ _
  unfold pullBack
  dsimp only
  refine (KeepsRoom.updateItem (KeepsRoom.modifyLines ?_ List.length_set.le rfl) _ _).touch i
  split
  · exact (hremoved.modifyTab (by exact id)).recomputeRail st
  · exact hremoved

theorem voidLine_keepsRoom (l : Lane) (f : VoidLineFields) (s : State) : KeepsRoom s (voidLine l f s).1 :=
  withTab_keepsRoom fun i u _ => by
    dsimp only
    iterate 4 (split; · exact .refl u)
    split
    · exact .refl u
    · exact .refl u
    · exact strikeEntered_keepsRoom i _ _ u
    · split
      · exact pullBack_keepsRoom i _ _ _ _ u
      · exact supervise_keepsRoom (applyAsk_keepsRoom i (.voidFired _) u) (.refl u)
      · exact .refl u

theorem withOpenLine_keepsRoom {l : Lane} {i : Slot} {n : Nat} {ok : Bool} {s : State} {k : Line → Answer}
    (h : ∀ x, KeepsRoom s (k x).1) : KeepsRoom s (withOpenLine l i n ok s k).1 := by
  unfold withOpenLine
  dsimp only
  iterate 6 (split; · exact .refl s)
  exact h _

theorem compLine_keepsRoom (l : Lane) (f : CompLineFields) (s : State) : KeepsRoom s (compLine l f s).1 :=
  withTab_keepsRoom fun i u _ => withOpenLine_keepsRoom fun _ => by
    split
    · exact .refl u
    · exact supervise_keepsRoom (applyAsk_keepsRoom i (.comp _) u) (.refl u)

theorem overridePrice_keepsRoom (l : Lane) (f : OverridePriceFields) (s : State) : KeepsRoom s (overridePrice l f s).1 :=
  withTab_keepsRoom fun i u _ => withOpenLine_keepsRoom fun _ => by
    dsimp only
    split
    · exact .refl u
    · exact supervise_keepsRoom (applyAsk_keepsRoom i (.price _ _) u) (.refl u)

theorem follow_keepsRoom (l : Lane) (n : Nat) (s : State) : KeepsRoom s (follow l n s).1 :=
  withTab_keepsRoom fun i u _ => by
    dsimp only
    split
    · exact .refl u
    split
    · exact .refl u
    rename_i hroom
    have hlt : (u.tab i).followers.length < 4 := Nat.not_le.mp hroom
    exact (KeepsRoom.refl u).setTab fun ht => ⟨ht.1, by simpa using hlt⟩

theorem unfollow_keepsRoom (l : Lane) (n : Nat) (s : State) : KeepsRoom s (unfollow l n s).1 :=
  withTab_keepsRoom fun _ u _ => (KeepsRoom.refl u).setTab fun ht => ht.of_le le_rfl (List.length_filter_le _ _)

theorem setService_keepsRoom (p : Port) (f : SetServiceFields) (s : State) : KeepsRoom s (setService p f s).1 :=
  withTab_keepsRoom fun i u _ => by
    dsimp only
    iterate 4 (split; · exact .refl u)
    refine KeepsRoom.touch (KeepsRoom.setTab (.refl u) ?_) i
    exact id

/-! ### Protection (R52 to R57) -/

theorem unlock_keepsRoom (l : Lane) (f : TabPinFields) (s : State) : KeepsRoom s (unlock l f s).1 :=
  withTab_keepsRoom fun i u _ => by
    dsimp only
    iterate 2 (split; · exact .refl u)
    split
    · exact (KeepsRoom.refl u).setTab id
    split
    · exact .refl u
    split
    · exact (KeepsRoom.refl u).setTab id
    split
    · refine KeepsRoom.touch (KeepsRoom.setTab (.refl u) ?_) i
      exact id
    · exact (KeepsRoom.refl u).setTab id

theorem lock_keepsRoom (l : Lane) (n : Nat) (s : State) : KeepsRoom s (lock l n s).1 :=
  withTab_keepsRoom fun _ u _ => by
    dsimp only
    split
    · exact .refl u
    · exact (KeepsRoom.refl u).setTab id

theorem setPin_keepsRoom (l : Lane) (f : TabPinFields) (s : State) : KeepsRoom s (setPin l f s).1 :=
  withTab_keepsRoom fun i u _ => by
    dsimp only
    iterate 4 (split; · exact .refl u)
    refine KeepsRoom.touch (KeepsRoom.setTab (.refl u) ?_) i
    exact id

theorem clearLockout_keepsRoom (l : Lane) (f : ClearLockoutFields) (s : State) : KeepsRoom s (clearLockout l f s).1 :=
  withTab_keepsRoom fun i u _ => by
    dsimp only
    iterate 3 (split; · exact .refl u)
    exact supervise_keepsRoom (applyAsk_keepsRoom i .pinClear u) (.refl u)

end Sys2Proof.Machine
end

section
/-! SUPPORT. What the split engine, settlement, stations and ports do keeps room, in the order of the model's files. -/

namespace Sys2Proof.Machine

/-! ### The split engine (R132 to R152) -/

theorem takeUp_keepsRoom (s : State) : KeepsRoom s (takeUp s) := by
  unfold takeUp
  split
  · rename_i job rest _ hwaiting
    exact { KeepsRoom.refl s with waiting := fun hw => Nat.le_of_succ_le (n := rest.length) (by rwa [hwaiting] at hw) }
  · exact .refl s

/-- An accepted request finds room in the list: the engine is idle, or busy with fewer than three requests waiting (R149). -/
theorem handToEngine_keepsRoom (job : SplitJob) {s : State}
    (h : ¬(s.computing.isSome = true ∧ Config.engineWaiting ≤ s.waiting.length)) :
    KeepsRoom s (handToEngine job (takeUp s)) := by
  cases hc : s.computing with
  | some c =>
    have hroom : s.waiting.length < 3 := Nat.not_le.mp fun hfull => h ⟨by rw [hc]; rfl, hfull⟩
    have he : handToEngine job (takeUp s) = { s with waiting := s.waiting ++ [job] } := by simp only [takeUp, handToEngine, hc]
    rw [he]
    exact { KeepsRoom.refl s with waiting := fun _ => by simpa using hroom }
  | none =>
    cases hw : s.waiting with
    | nil =>
      have he : handToEngine job (takeUp s) = beginJob job s := by simp only [takeUp, handToEngine, hc, hw]
      rw [he]
      exact keepsRoom_of_same rfl
    | cons first rest =>
      have he : handToEngine job (takeUp s)
          = { beginJob first { s with waiting := rest } with waiting := rest ++ [job] } := by
        simp only [takeUp, handToEngine, hc, hw, beginJob]
      rw [he]
      exact { KeepsRoom.refl s with waiting := fun hlen => by simpa [hw] using hlen }

theorem PortEntry.load_outstanding_le (e : PortEntry) (q : Option (Nat × Kind)) :
    ({ e with outstanding := q } : PortEntry).load ≤ e.load + 1 := by
  unfold PortEntry.load
  dsimp only
  split <;> omega

theorem handToEngine_port (job : SplitJob) (s : State) (l : Lane) : (handToEngine job (takeUp s)).port l = s.port l := by
  unfold handToEngine takeUp
  split <;> split <;> rfl

/-- A SPLIT accepted from a port with little to send (R148). -/
theorem acceptSplit_keepsRoom (l : Lane) (tag : Nat) (i : Slot) (d : ShareDef) (n : Nat) {s : State} (hl : (s.port l).load ≤ 5)
    (h : ¬(s.computing.isSome = true ∧ Config.engineWaiting ≤ s.waiting.length)) : KeepsRoom s (acceptSplit l tag i d n s) := by
  unfold acceptSplit
  dsimp only
  have hreserved : KeepsRoom s (reserveShares (s.pickShares n) (s.tab i).number s) := keepsRoom_of_same rfl
  generalize hu : State.modifyTab _ i _ = u
  have hmarked : KeepsRoom s u := hu ▸ hreserved.modifyTab (by exact id)
  have hengine : ¬(u.computing.isSome = true ∧ Config.engineWaiting ≤ u.waiting.length) := hu ▸ h
  have hport : u.port l = s.port l := hu ▸ rfl
  refine ((hmarked.trans (handToEngine_keepsRoom _ hengine)).setPort (.inl ?_)).touch i
  refine (PortEntry.load_outstanding_le _ _).trans ?_
  rw [handToEngine_port, hport]
  exact Nat.succ_le_succ hl

theorem split_keepsRoom (tag : Nat) (l : Lane) (f : SplitFields) (s : State) (hl : (s.port l).load ≤ 5) :
    KeepsRoom s (split tag l f s).1 :=
  withTab_keepsRoom fun i u hu => by
    dsimp only
    iterate 6 (split; · exact .refl u)
    split
    · exact .refl u
    · rename_i hroom
      exact acceptSplit_keepsRoom l tag i _ _ (hu l ▸ hl) hroom

/-- The withheld reply takes the place kept for it (R151, R167). -/
theorem KeepsRoom.answerSplit {s t : State} (h : KeepsRoom s t) (l : Lane) (r : Reply) : KeepsRoom s (answerSplit l r t) := by
  unfold Machine.answerSplit
  split
  · rename_i tag kind hout
    rw [sendReply, sendFrame, State.setPort_setPort, State.setPort_port_self]
    exact h.setPort (.of_eq (by simp [PortEntry.load, hout]) rfl)
  · exact h

/-! ### Settlement (R154 to R166) -/

theorem KeepsRoom.releaseSplit {s t : State} (h : KeepsRoom s t) (i : Slot) : KeepsRoom s (releaseSplit i t) := by
  have hfreed : KeepsRoom s (freeShares (t.tab i).shareRefs t) := h.same rfl
  exact ((hfreed.modifyTab (by exact id)).endStale _ _).touch i

theorem KeepsRoom.loseOwner {s t : State} (h : KeepsRoom s t) (i : Slot) : KeepsRoom s (loseOwner i t) := by
  rw [loseOwner_eq]
  have hlost : KeepsRoom s (t.setTab i (t.tab i).ownerless) := h.setTab fun ht => ht
  split
  · exact hlost.touch i
  · exact hlost.releaseSplit i

theorem KeepsRoom.closeTab {s t : State} (h : KeepsRoom s t) (i : Slot) : KeepsRoom s (closeTab i t) := by
  unfold Machine.closeTab
  dsimp only
  generalize hu : State.modifyTab t i _ = u
  have hclosed : KeepsRoom s u := hu ▸ h.modifyTab (by exact id)
  have hqueued : KeepsRoom s { u with closeQueue := u.closeQueue ++ [(u.tab i).number] } := hclosed.same rfl
  exact (hqueued.raisePort .closeWaiting .office).touch i

theorem forgetDone_keepsRoom (n : Nat) (s : State) : KeepsRoom s (forgetDone n s) :=
  { KeepsRoom.refl s with
    stations := fun st hst => by
      rw [forgetDone, State.station, tableOf_get]
      exact hst.of_le le_rfl le_rfl (List.length_filter_le _ _) }

theorem KeepsRoom.freeTab {s t : State} (h : KeepsRoom s t) (i : Slot) : KeepsRoom s (freeTab i t) := by
  have hended := (h.touch i).endStale (t.tab i).number fun _ => true
  refine KeepsRoom.setTab (hended.trans ?_) fun _ => ⟨Nat.zero_le 64, Nat.zero_le 4⟩
  exact forgetDone_keepsRoom _ _

theorem complete_keepsRoom (s : State) : KeepsRoom s (complete s) := by
  unfold complete
  split
  · exact .refl s
  rename_i c _
  split
  · exact keepsRoom_of_same rfl
  rename_i i _
  have hhanded : KeepsRoom s (handOver i c s) := by
    unfold handOver
    dsimp only
    refine KeepsRoom.modifyTab ?_ (by exact id)
    exact keepsRoom_of_same rfl
  dsimp only
  split
  · unfold settle
    dsimp only
    split
    · exact (hhanded.closeTab i).answerSplit _ _
    · exact ((hhanded.modifyTab (by exact id)).touch i).answerSplit _ _
  · exact hhanded.releaseSplit i

theorem shareView_keepsRoom (p : Port) (f : TabPageFields) (s : State) : KeepsRoom s (shareView p f s).1 :=
  withTab_keepsRoom fun _ u _ => by
    dsimp only
    iterate 2 (split; · exact .refl u)
    exact .refl u

theorem withOwnSplit_keepsRoom {l : Lane} {i : Slot} {s : State} {k : SplitRef → Answer} (h : ∀ r, KeepsRoom s (k r).1) :
    KeepsRoom s (withOwnSplit l i s k).1 := by
  unfold withOwnSplit
  dsimp only
  iterate 4 (split; · exact .refl s)
  exact h _

theorem takeTender_keepsRoom (i : Slot) (j : ShareNo) (index : Nat) (sh : Share) (d : Tender) (s : State) :
    KeepsRoom s (takeTender i j index sh d s).1 := by
  have hpaid : KeepsRoom s (s.setShare j (.held (sh.addTender d))) := keepsRoom_of_same rfl
  unfold takeTender
  dsimp only [answer]
  split
  · exact (hpaid.touch i).closeTab i
  · exact hpaid.touch i

theorem tender_keepsRoom (l : Lane) (f : TenderFields) (s : State) : KeepsRoom s (tender l f s).1 :=
  withTab_keepsRoom fun i u _ => withOwnSplit_keepsRoom fun _ => by
    split
    · iterate 2 (split; · exact .refl u)
      dsimp only
      split
      · exact .refl u
      split
      · exact .refl u
      · exact .refl u
      · exact takeTender_keepsRoom _ _ _ _ _ u
    · exact .refl u

theorem undoTender_keepsRoom (l : Lane) (f : UndoTenderFields) (s : State) : KeepsRoom s (undoTender l f s).1 :=
  withTab_keepsRoom fun i u _ => withOwnSplit_keepsRoom fun _ => by
    iterate 4 (split; · exact .refl u)
    exact supervise_keepsRoom (applyAsk_keepsRoom i (.undoTender _) u) (.refl u)

theorem dropSplit_keepsRoom (l : Lane) (n : Nat) (s : State) : KeepsRoom s (dropSplit l n s).1 :=
  withTab_keepsRoom fun i u _ => withOwnSplit_keepsRoom fun _ => by
    split
    · exact .refl u
    · exact (KeepsRoom.refl u).releaseSplit i

theorem lapseClaim_keepsRoom (n : Nat) (s : State) : KeepsRoom s (lapseClaim n s) := by
  unfold lapseClaim
  split
  · exact .refl s
  split
  · exact ((KeepsRoom.refl s).raiseLanes _ _).loseOwner _
  · exact .refl s

theorem adopt_keepsRoom (l : Lane) (n : Nat) (s : State) : KeepsRoom s (adopt l n s).1 :=
  withTab_keepsRoom fun i u _ => by
    dsimp only
    iterate 3 (split; · exact .refl u)
    split
    · split <;> exact .refl u
    · refine KeepsRoom.touch (KeepsRoom.setTab (.refl u) ?_) i
      exact id

theorem exportTab_keepsRoom (i : Slot) (s : State) : KeepsRoom s (exportTab i s) := by
  have hfreed : KeepsRoom s (freeShares (s.tab i).shareRefs s) := keepsRoom_of_same rfl
  unfold exportTab
  dsimp only
  split
  · exact (hfreed.modifyTab (by exact id)).freeTab i
  · exact ((hfreed.modifyTab (by exact id)).modifyTab (by exact id)).touch i

theorem takeClosed_keepsRoom (f : Unit) (s : State) : KeepsRoom s (takeClosed f s).1 := by
  have htaken (rest : List Nat) : KeepsRoom s { s with closeQueue := rest } := keepsRoom_of_same rfl
  unfold takeClosed
  split
  · exact .refl s
  dsimp only
  split
  · exact htaken _
  · exact (htaken _).trans (exportTab_keepsRoom _ _)

/-! ### Stations (R93 to R107) -/

theorem Station.Fits.putInWork {x : Station} (h : x.Fits) (hroom : stackFull x = false) (t : Ticket) : (x.putInWork t).Fits := by
  obtain ⟨hq, hs, hr⟩ := h
  refine ⟨hq, ?_, hr⟩
  cases hw : x.inWork with
  | none => simpa [Station.putInWork, hw] using hs
  | some tk =>
    have hfull : ¬Config.stackSize ≤ x.stack.length := by
      simpa only [stackFull, hw, Option.isSome_some, Bool.true_and, decide_eq_false_iff_not] using hroom
    simpa [Station.putInWork, hw, Nat.add_comm] using Nat.le_of_lt_succ (n := 1) (Nat.not_le.mp hfull)

theorem Station.Fits.takeTicket {x : Station} (h : x.Fits) (hroom : stackFull x = false) (t : Ticket) : (x.takeTicket t).Fits :=
  (h.of_le (y := { x with queue := x.queue.filter fun y => y.number ≠ t.number }) (List.length_filter_le _ _) le_rfl
    le_rfl).putInWork hroom t

theorem Station.Fits.recallTicket {x : Station} (h : x.Fits) (hroom : stackFull x = false) (t : Ticket) :
    (x.recallTicket t).Fits :=
  (h.of_le (y := { x with recalls := x.recalls.filter fun y => y.number ≠ t.number }) le_rfl le_rfl
    (List.length_filter_le _ _)).putInWork hroom t

theorem Station.Fits.bumpTicket {x : Station} (h : x.Fits) (t : Ticket) : (x.bumpTicket t).Fits :=
  ⟨h.1, h.2.1, List.length_take_le _ _⟩

theorem Station.Fits.mapLive {x : Station} (h : x.Fits) (f : Ticket → Ticket) : (x.mapLive f).Fits :=
  h.of_le (List.length_map f).le (List.length_map f).le le_rfl

theorem take_keepsRoom (st : StationNo) (f : Unit) (s : State) : KeepsRoom s (take st f s).1 := by
  unfold take
  split
  · exact .refl s
  split
  · exact .refl s
  rename_i hroom
  have htaken (t : Ticket) : KeepsRoom s (s.modifyStation st (Station.takeTicket t)) :=
    (KeepsRoom.refl s).modifyStation fun hx => hx.takeTicket (Bool.not_eq_true _ ▸ hroom) t
  exact (htaken _).recomputeRail st

/-- The lines of a ticket changed one by one (R97, R100). -/
theorem KeepsRoom.changeLines {s t : State} (h : KeepsRoom s t) (i : Slot) (ns : List Nat) (f : Line → Line) (n : Nat) :
    KeepsRoom s (Machine.touch i (t.modifyTab i fun tab => { tab.changeLines ns f with live := n })) :=
  (h.modifyLines (by simp [Tab.changeLines]) rfl).touch i

theorem bump_keepsRoom (st : StationNo) (f : Unit) (s : State) : KeepsRoom s (bump st f s).1 := by
  unfold bump
  split
  · exact .refl s
  rename_i t _
  have hbumped : KeepsRoom s (s.modifyStation st (Station.bumpTicket t)) :=
    (KeepsRoom.refl s).modifyStation fun hx => hx.bumpTicket t
  dsimp only [answer]
  split
  · rename_i i _
    have hserved := hbumped.changeLines i t.lines serveLine
    unfold serveTab
    dsimp only
    split
    · exact (hserved _).freeTab i
    · exact hserved _
  · exact hbumped

theorem resume_keepsRoom (st : StationNo) (f : Unit) (s : State) : KeepsRoom s (resume st f s).1 := by
  unfold resume
  split
  · rename_i t rest _ hstack
    dsimp only [answer]
    refine KeepsRoom.modifyStation (.refl s) ?_
    exact fun hx => hx.of_le le_rfl (by rw [hstack]; exact Nat.le_succ _) le_rfl
  · exact .refl s

theorem recallTicket_keepsRoom (st : StationNo) (n : Nat) (s : State) : KeepsRoom s (recallTicket st n s).1 := by
  unfold recallTicket
  iterate 3 (split; · exact .refl s)
  split
  · exact .refl s
  rename_i t _ _ hroom
  have hrecalled : KeepsRoom s (s.modifyStation st (Station.recallTicket t)) :=
    (KeepsRoom.refl s).modifyStation fun hx => hx.recallTicket (Bool.not_eq_true _ ▸ hroom) t
  dsimp only [answer]
  split
  · exact hrecalled.changeLines _ t.lines unserveLine _
  · exact hrecalled

theorem holdLow_keepsRoom (st : StationNo) (code : Nat) (s : State) : KeepsRoom s (holdLow st code s).1 := by
  unfold holdLow
  split
  · exact .refl s
  · exact ((KeepsRoom.refl s).modifyStation (by exact id)).recomputeRail st

theorem setWorking_keepsRoom (asked : StationState) (st : StationNo) (s : State) : KeepsRoom s (setWorking asked st s).1 := by
  unfold setWorking
  iterate 2 (split; · exact .refl s)
  exact ((KeepsRoom.refl s).modifyStation (by exact id)).recomputeRail st

theorem pauseOrOpen_keepsRoom (asked : StationState) (p : Port) (f : Option Nat) (s : State) :
    KeepsRoom s (pauseOrOpen asked p f s).1 := by
  unfold pauseOrOpen
  split
  · split
    · exact setWorking_keepsRoom asked _ s
    · exact .refl s
  · split
    · exact setWorking_keepsRoom asked _ s
    · exact .refl s

theorem stationView_keepsRoom (st : StationNo) (start : Nat) (s : State) : KeepsRoom s (stationView st start s).1 := by
  unfold stationView
  split <;> exact .refl s

theorem configure_keepsRoom (st : StationNo) (state : StationState) (a : Option StationNo) (threshold : Nat) (s : State) :
    KeepsRoom s (configure st state a threshold s) := (KeepsRoom.refl s).modifyStation id

theorem reconfigure_keepsRoom (st : StationNo) (state : StationState) (a : Option StationNo) (threshold : Nat) (status : Status)
    (s : State) : KeepsRoom s (reconfigure st state a threshold status s).1 :=
  (configure_keepsRoom st state a threshold s).recomputeRail st

/-- A queue moves where the alternate has room for it (R105). -/
theorem moveQueue_keepsRoom (st a : StationNo) {s : State} (h : (s.station a).queue.length + (s.station st).queue.length ≤ 64) :
    KeepsRoom s (moveQueue st a s) := by
  have hemptied : KeepsRoom s (s.modifyStation st fun x => { x with queue := [] }) :=
    (KeepsRoom.refl s).modifyStation fun hx => hx.of_le (Nat.zero_le _) le_rfl le_rfl
  unfold moveQueue
  dsimp only
  refine KeepsRoom.modifyStation hemptied ?_
  refine fun hx => ⟨?_, hx.2⟩
  have hle : ((s.modifyStation st fun x => { x with queue := [] }).station a).queue.length ≤ (s.station a).queue.length := by
    rw [State.modifyStation, State.setStation_station]
    split
    · exact Nat.zero_le _
    · exact le_rfl
  rw [List.length_append, List.length_map]
  omega

theorem closeStation_keepsRoom (st : StationNo) (a : Option StationNo) (threshold : Nat) (status : Status) (s : State) :
    KeepsRoom s (closeStation st a threshold status s).1 := by
  unfold closeStation
  dsimp only
  split
  · exact .refl s
  split
  · exact reconfigure_keepsRoom st _ a threshold status s
  split
  · exact .refl s
  split
  · exact .refl s
  split
  · exact .refl s
  rename_i b _ hroom
  have hqueue (x : StationNo) : ((configure st .closed (some b) threshold s).station x).queue = (s.station x).queue := by
    rw [configure, State.modifyStation, State.setStation_station]
    split
    · subst_vars; rfl
    · rfl
  dsimp only [answer]
  refine ((configure_keepsRoom st .closed (some b) threshold s).trans (moveQueue_keepsRoom st b ?_)).recomputeRails [st, b]
  rw [hqueue, hqueue]
  exact Nat.not_lt.mp hroom

theorem setStation_keepsRoom (f : SetStationFields) (s : State) : KeepsRoom s (setStation f s).1 := by
  unfold setStation
  split
  · split
    · exact .refl s
    dsimp only
    split
    · exact closeStation_keepsRoom _ _ _ _ s
    · exact reconfigure_keepsRoom _ _ _ _ _ s
  · exact .refl s

theorem expireLate_keepsRoom (n : Nat) (s : State) : KeepsRoom s (expireLate n s) := by
  unfold expireLate
  split
  · exact .refl s
  rename_i st _ t _
  have hexpired : KeepsRoom s (s.modifyStation st (Station.mapLive (Ticket.expire n))) :=
    (KeepsRoom.refl s).modifyStation fun hx => hx.mapLive _
  dsimp only
  split
  · exact (hexpired.raiseLanes _ _).raiseLanes _ _
  · exact .refl s

/-! ### Ports and the clock (R113, R167 to R171, R182 to R184) -/

theorem KeepsRoom.returnToken {s t : State} (h : KeepsRoom s t) : KeepsRoom s (returnToken t) := by
  have hgiven : KeepsRoom s (giveToken .office t) := h.same rfl
  exact (hgiven.raisePort .tokenGiven .office).announceQueue

theorem KeepsRoom.disown {s t : State} (h : KeepsRoom s t) (l : Lane) (i : Slot) : KeepsRoom s (disown l t i) := by
  unfold Machine.disown
  split
  · split
    · exact h.loseOwner i
    · exact (h.modifyTab (by exact id)).touch i
  · exact h

theorem KeepsRoom.disownAll {s t : State} (h : KeepsRoom s t) (l : Lane) (is : List Slot) :
    KeepsRoom s (is.foldl (Machine.disown l) t) := by
  induction is generalizing t with
  | nil => exact h
  | cons i is ih => exact ih (h.disown l i)

theorem leaveTabs_keepsRoom (l : Lane) (s : State) : KeepsRoom s (leaveTabs l (unbind l s)) :=
  { KeepsRoom.refl s with
    stations := fun st hst => by
      rw [show (leaveTabs l (unbind l s)).station st = (unbind l s).station st from rfl, unbind, State.station, tableOf_get]
      exact hst
    tabs := fun i ht => by
      rw [leaveTabs, State.tab, tableOf_get]
      exact ht.of_le le_rfl (List.length_filter_le _ _) }

theorem PortEntry.cleared_load (e : PortEntry) : e.cleared.load ≤ 1 := by
  simp [PortEntry.load, PortEntry.cleared]

theorem resetPort_keepsRoom (l : Lane) (s : State) : KeepsRoom s (resetPort l s) := by
  have hgiven := (leaveTabs_keepsRoom l s).disownAll l (List.finRange 128)
  unfold resetPort
  dsimp only
  generalize List.foldl (disown l) _ _ = v at hgiven ⊢
  refine (KeepsRoom.emptyResults ?_ l).setPort (.inl ((PortEntry.cleared_load _).trans (by omega)))
  split
  · exact hgiven.returnToken
  · exact hgiven

theorem resetPort_load (l : Lane) (s : State) : ((resetPort l s).port l).load ≤ 6 := by
  unfold resetPort
  dsimp only
  rw [State.setPort_port_self]
  exact (PortEntry.cleared_load _).trans (by omega)

theorem KeepsRoom.applyFlags {s t : State} (h : KeepsRoom s t) (l : Lane) (f : SetPortFields) (r : Role) :
    KeepsRoom s (applyFlags l f r t) := h.setPort (.of_eq rfl rfl)

theorem KeepsRoom.bindStation {s t : State} (h : KeepsRoom s t) (l : Lane) (st : StationNo) : KeepsRoom s (bindStation l st t) := by
  unfold Machine.bindStation
  dsimp only
  generalize hu : State.modifyStation t st _ = u
  have hnamed : KeepsRoom s u := hu ▸ h.modifyStation (by exact id)
  have hbound : KeepsRoom s (u.setPort l { u.port l with bound := some st }) := hnamed.setPort (.of_eq rfl rfl)
  exact hbound.recomputeRail st

/-- What follows the port reset in a change of standing (R169, R171). -/
theorem changeStanding_afterReset (l : Lane) (f : SetPortFields) (r : Role) (st : Option StationNo) (s : State) :
    KeepsRoom (resetPort l s) (changeStanding l f r st s).2 := by
  unfold changeStanding
  generalize resetPort l s = v
  have hflagged := (KeepsRoom.refl v).applyFlags l f r
  dsimp only
  split
  · exact hflagged
  split
  · exact .refl v
  · exact hflagged.bindStation l _

theorem keepStanding_keepsRoom (l : Lane) (f : SetPortFields) (r : Role) (s : State) : KeepsRoom s (keepStanding l f r s) := by
  have hflagged := (KeepsRoom.refl s).applyFlags l f r
  unfold keepStanding
  dsimp only
  split
  · exact hflagged.returnToken.raiseLanes _ _
  · exact hflagged

theorem setPortRequest_keepsRoom (f : SetPortFields) (s : State) : KeepsRoom s (setPortRequest f s).1 := by
  unfold setPortRequest
  split
  · split
    · exact (resetPort_keepsRoom _ s).trans (changeStanding_afterReset _ f _ _ s)
    · exact keepStanding_keepsRoom _ f _ s
  · exact .refl s

/-- A lane that a SET_PORT resets has little to send after it (R170). -/
theorem setPortRequest_load {f : SetPortFields} {s : State} {l : Lane} (h : resetLane f s = some l) :
    ((setPortRequest f s).1.port l).load ≤ 6 := by
  unfold resetLane at h
  unfold setPortRequest
  split at h
  · rename_i m r st hm hst
    split at h
    · rename_i hc
      obtain rfl : m = l := Option.some.inj h
      simp only [if_pos hc]
      exact ((changeStanding_afterReset m f r st s).ports m).light (resetPort_load m s)
    · cases h
  · cases h

/-- EVENTS and SET_MASK change the requester's own entry, which has little to send (R182, R183). -/
theorem events_keepsRoom (p : Port) (f : Unit) (s : State) (h : ∀ l, p = .lane l → (s.port l).load ≤ 5) :
    KeepsRoom s (events p f s).1 := by
  cases p with
  | office => exact keepsRoom_of_same rfl
  | lane l => exact (KeepsRoom.refl s).setPort (.inl ((h l rfl).trans (by omega)))

theorem setMask_keepsRoom (p : Port) (mask : Nat) (s : State) (h : ∀ l, p = .lane l → (s.port l).load ≤ 5) :
    KeepsRoom s (setMask p mask s).1 := by
  cases p with
  | office => exact keepsRoom_of_same rfl
  | lane l => exact (KeepsRoom.refl s).setPort (.inl ((h l rfl).trans (by omega)))

theorem deviceReset_keepsRoom (s : State) : KeepsRoom s (deviceReset s) :=
  { pending := rfl
    ports := fun l => by
      have hl : (deviceReset s).port l = PortEntry.blank := replicate_get _ l
      rw [hl]
      exact .inl (Nat.zero_le 6)
    stations := fun st _ => by
      have hst : (deviceReset s).station st = Station.blank := replicate_get _ st
      rw [hst]
      exact ⟨Nat.zero_le 64, Nat.zero_le 2, Nat.zero_le 8⟩
    tabs := fun i _ => by
      have ht : (deviceReset s).tab i = Tab.blank := replicate_get _ i
      rw [ht]
      exact ⟨Nat.zero_le 64, Nat.zero_le 4⟩
    approvals := fun _ => ⟨Nat.zero_le 16, List.nodup_nil⟩
    results := fun l _ => by
      have hl : (deviceReset s).resultsOf l = [] := replicate_get _ l
      rw [hl]
      exact Nat.zero_le 4
    waiting := fun _ => Nat.zero_le 3 }

theorem tick_keepsRoom (s : State) : KeepsRoom s (tick s) :=
  { KeepsRoom.refl s with
    ports := fun l => by
      have hl : (tick s).port l = { s.port l with receiver := (s.port l).receiver.tick } := tableOf_get _ l
      rw [hl]
      exact .of_eq rfl rfl
    stations := fun st hst => by
      have hx : (tick s).station st = (s.station st).mapLive fun t => { t with late := countDown t.late } := tableOf_get _ st
      rw [hx]
      exact hst.mapLive _
    tabs := fun i ht => by
      have hu : (tick s).tab i = { s.tab i with claim := countDown (s.tab i).claim } := tableOf_get _ i
      rw [hu]
      exact ht }

end Sys2Proof.Machine
end

section
/-! SUPPORT. Every command completes and keeps the lists of the part within their capacities: the port interface around a request
(R167, R173 to R177, R180), and each command by what its block keeps. -/

namespace Sys2Proof.Machine

/-! ### A step, its notices sent -/

/-- A step that leaves the waiting commands as they are, room in every transmit list, and every list within its capacity. -/
structure StepKeepsRoom (s t : State) : Prop where
  pending : t.pending = s.pending
  transmit : TransmitHolds s → TransmitHolds t
  lists : ListsHold s → ListsHold t

theorem StepKeepsRoom.trans {s t u : State} (h : StepKeepsRoom s t) (h' : StepKeepsRoom t u) : StepKeepsRoom s u :=
  ⟨h'.pending.trans h.pending, h'.transmit ∘ h.transmit, h'.lists ∘ h.lists⟩

/-- An entry with little to send has room for a notice. -/
theorem roomy_of_light {e : PortEntry} (h : e.load ≤ 7) : e.roomy = true := by
  rw [roomy_iff]
  split <;> omega

theorem PortEntry.NoFuller.roomy {e e' : PortEntry} (h : e.NoFuller e') (he : e.roomy = true) : e'.roomy = true := by
  rcases h with hlight | ⟨hl, hp⟩
  · exact roomy_of_light (hlight.trans (by omega))
  · rw [roomy_iff] at he ⊢
    by_cases hz : e'.pendingSet = 0
    · rw [if_pos (hp hz)] at he
      rw [if_pos hz]
      omega
    · rw [if_neg hz]
      split at he <;> omega

theorem KeepsRoom.step {s t : State} (h : KeepsRoom s t) : StepKeepsRoom s t :=
  ⟨h.pending, fun hs l => (h.ports l).roomy (hs l), h.lists⟩

theorem StepKeepsRoom.refl (s : State) : StepKeepsRoom s s := (KeepsRoom.refl s).step

/-- The lists of the part do not stand in the port interface. -/
theorem lists_of_samePart {s t : State} (h : s.samePart t) (hs : ListsHold s) : ListsHold t := by
  unfold State.samePart at h
  rw [h]
  exact hs

theorem pending_of_samePart {s t : State} (h : s.samePart t) : t.pending = s.pending := by
  unfold State.samePart at h
  rw [h]

/-- A notice takes the place kept for it: the pending set it reports was empty before (R167, R180). -/
theorem withNotice_roomy {b a : PortEntry} (h : b.NoFuller a) (hb : b.roomy = true) : (withNotice false b a).roomy = true := by
  by_cases hn : (a.notices && decide (a.role ≠ .off) && (false || decide (b.pendingSet = 0)) && decide (a.pendingSet ≠ 0)) = true
  · simp only [Bool.false_or, Bool.and_eq_true, decide_eq_true_eq] at hn
    obtain ⟨⟨-, hbefore⟩, hafter⟩ := hn
    have hload : a.load ≤ 7 := by
      rcases h with hlight | ⟨hl, -⟩
      · exact hlight.trans (by omega)
      · rw [roomy_iff, if_pos hbefore] at hb
        omega
    have hpend : (withNotice false b a).pendingSet = a.pendingSet := by rw [withNotice_eq]; rfl
    have hsent : (withNotice false b a).load ≤ a.load + 1 := by
      rw [withNotice_eq, PortEntry.load, PortEntry.load]
      dsimp only
      rw [List.length_append]
      split
      · simp only [List.length_singleton]
        omega
      · exact (Nat.le_succ _)
    rw [roomy_iff, hpend, if_neg hafter]
    omega
  · rw [withNotice, if_neg hn]
    exact h.roomy hb

/-- A notice finds room on top of little to send, whatever stood before. -/
theorem withNotice_light {fresh : Bool} {b a : PortEntry} (h : a.load ≤ 7) : (withNotice fresh b a).roomy = true := by
  rw [withNotice]
  split
  · rename_i hn
    simp only [Bool.and_eq_true, decide_eq_true_eq] at hn
    have hpend : ({ a with transmit := a.transmit ++ [.notice a.pendingSet] } : PortEntry).pendingSet ≠ 0 := hn.2
    rw [roomy_iff, if_neg hpend]
    simp only [PortEntry.load, List.length_append, List.length_singleton] at h ⊢
    omega
  · exact roomy_of_light h

theorem composeNotices_port (fresh : Option Lane) (before s : State) (l : Lane) :
    (composeNotices fresh before s).port l = withNotice (fresh = some l) (before.port l) (s.port l) := tableOf_get _ l

theorem KeepsRoom.notices {s t : State} (h : KeepsRoom s t) : StepKeepsRoom s (composeNotices none s t) :=
  ⟨h.pending, fun hs l => by rw [composeNotices_port]; exact withNotice_roomy (h.ports l) (hs l), h.lists⟩

/-! ### A received frame (R167, R173 to R177) -/

theorem huntAgain_keepsRoom (p : Port) (s : State) : KeepsRoom s (huntAgain p s) := by
  cases p with
  | office => exact keepsRoom_of_same rfl
  | lane l => exact (KeepsRoom.refl s).setPort (.of_eq rfl rfl)

theorem clockReply_keepsRoom (n : Nat) (s : State) : KeepsRoom s (clockReply n s) := by
  rw [clockReply_eq]
  rcases clockedOut_cases n s with ⟨-, e⟩ | ⟨-, -, ⟨-, e⟩ | ⟨-, e⟩⟩ <;> rw [e] <;> exact keepsRoom_of_same rfl

theorem clockFrame_keepsRoom (p : Port) (n : Nat) (s : State) : KeepsRoom s (clockFrame p n s) := by
  unfold clockFrame
  split
  · exact .refl s
  · exact clockReply_keepsRoom n s
  · exact clockReply_keepsRoom (n - 1) s

theorem dropFrame_keepsRoom (p : Port) (s : State) : StepKeepsRoom s (dropFrame p s) :=
  ((huntAgain_keepsRoom p s).raisePort _ _).notices

theorem sendReply_port (p : Port) (tag code : Nat) (r : Reply) (s : State) (l : Lane) :
    (sendReply p tag code r s).port l =
      if p = .lane l then { s.port l with transmit := (s.port l).transmit ++ [.reply tag (code + 0x80) r.status r.body] }
      else s.port l := by
  cases p with
  | office => rfl
  | lane k =>
    rw [sendReply, sendFrame, State.setPort_port]
    by_cases h : l = k
    · subst h; simp
    · have h' : k ≠ l := Ne.symm h
      simp [h, h']

theorem sendReply_load {p : Port} {s : State} {l : Lane} (tag code : Nat) (r : Reply) (hl : p = .lane l → (s.port l).load ≤ 6) :
    ((sendReply p tag code r s).port l = s.port l) ∨ ((sendReply p tag code r s).port l).load ≤ 7 := by
  rw [sendReply_port]
  split
  · rename_i hp
    have h := hl hp
    simp only [PortEntry.load, List.length_append, List.length_singleton] at h ⊢
    omega
  · exact .inl rfl

/-- A port whose frame is taken has fewer than six frames to send (R167). -/
def HasRoom (p : Port) (s : State) : Prop := ∀ l, p = .lane l → (s.port l).transmit.length ≤ 5

theorem hasRoom_of_uncongested {p : Port} {s : State} (h : congested p s = false) : HasRoom p s := by
  rintro l rfl
  have hfew : ¬Config.transmitGuard ≤ (s.port l).transmit.length := of_decide_eq_false h
  exact Nat.le_of_lt_succ (Nat.not_le.mp hfew)

theorem HasRoom.load_le {p : Port} {s : State} (h : HasRoom p s) {l : Lane} (hl : p = .lane l) : (s.port l).load ≤ 6 := by
  have := h l hl
  unfold PortEntry.load
  split <;> omega

/-- With no reply outstanding a reply and a notice fit besides what a SPLIT may add (R167, R177). -/
theorem HasRoom.load_lt {p : Port} {s : State} (h : HasRoom p s) (ha : awaitsReply p s = false) {l : Lane} (hl : p = .lane l) :
    (s.port l).load ≤ 5 := by
  subst hl
  have hnone : (s.port l).outstanding.isSome = false := ha
  simpa [PortEntry.load, hnone] using h l rfl

theorem sendReply_keepsRoom {p : Port} {s : State} (tag code : Nat) (r : Reply) (h : HasRoom p s) :
    StepKeepsRoom s (sendReply p tag code r s) :=
  ⟨pending_of_samePart (samePart_sendReply p tag code r s),
    fun hs l => by
      rcases sendReply_load tag code r h.load_le with e | hlight
      · rw [e]; exact hs l
      · exact roomy_of_light hlight,
    lists_of_samePart (samePart_sendReply p tag code r s)⟩

/-- A block's answer, its reply sent and then the notices (R167). -/
theorem conclude_keepsRoom {p : Port} {tag : Nat} {k : Kind} {fresh : Option Lane} {s : State} {a : Answer} (h : KeepsRoom s a.1)
    (hp : ∀ l, p = .lane l → (a.1.port l).load ≤ 6) (hf : ∀ l, fresh = some l → (a.1.port l).load ≤ 6) :
    StepKeepsRoom s (conclude p tag k fresh s a) := by
  have hsame : a.1.samePart (conclude p tag k fresh s a) :=
    State.samePart_trans (samePart_deliver p tag (kindCode k) a) (samePart_composeNotices fresh s _)
  refine ⟨(pending_of_samePart hsame).trans h.pending, fun hs l => ?_, fun hs => lists_of_samePart hsame (h.lists hs)⟩
  rw [conclude, composeNotices_port]
  have hsent : (deliver p tag (kindCode k) a).port l = a.1.port l ∨ ((deliver p tag (kindCode k) a).port l).load ≤ 7 := by
    unfold deliver
    split
    · exact sendReply_load _ _ _ (hp l)
    · exact .inl rfl
  rcases hsent with e | hlight
  · rw [e]
    by_cases hl : fresh = some l
    · exact withNotice_light ((hf l hl).trans (by omega))
    · rw [decide_eq_false hl]
      exact withNotice_roomy (h.ports l) (hs l)
  · exact withNotice_light hlight

theorem receive_keepsRoom {p : Port} {n : Nat} {s : State} {examine : State → State}
    (h : ∀ u, HasRoom p u → StepKeepsRoom u (examine u)) : StepKeepsRoom s (receive p n s examine) := by
  have hclocked := clockFrame_keepsRoom p n s
  unfold receive
  split
  · exact .refl s
  dsimp only
  split
  · exact hclocked.step.trans (dropFrame_keepsRoom p _)
  · rename_i hfree
    simp only [Bool.or_eq_true, not_or, Bool.not_eq_true] at hfree
    have hroom := hasRoom_of_uncongested hfree.2
    refine (hclocked.trans (huntAgain_keepsRoom p _)).step.trans (h _ fun l hl => ?_)
    have hsent : ((huntAgain p (clockFrame p n s)).port l).transmit = ((clockFrame p n s).port l).transmit := by
      rw [huntAgain_port]; split <;> rfl
    rw [hsent]
    exact hroom l hl

theorem handle_keepsRoom {α : Type} {k : Kind} {p : Port} {tag : Nat} {body : Body α} {fresh : α → State → Option Lane}
    {block : α → State → Answer} {s : State} (hroom : HasRoom p s)
    (h : ∀ f, (∀ l, p = .lane l → (s.port l).load ≤ 5) → KeepsRoom s (block f s).1)
    (hf : ∀ f l, fresh f s = some l → ((block f s).1.port l).load ≤ 6) : StepKeepsRoom s (handle k p tag body fresh block s) := by
  unfold handle
  split
  · exact dropFrame_keepsRoom p s
  split
  · exact sendReply_keepsRoom _ _ _ hroom
  split
  · exact sendReply_keepsRoom _ _ _ hroom
  rename_i fields hawaits
  have hlight : ∀ l, p = .lane l → (s.port l).load ≤ 5 := fun l => hroom.load_lt (Bool.not_eq_true _ ▸ hawaits)
  split
  · have hblock := h fields hlight
    exact conclude_keepsRoom hblock (fun l hl => (hblock.ports l).light ((hlight l hl).trans (by omega))) (hf _)
  · exact sendReply_keepsRoom _ _ _ hroom

/-! ### Every command -/

/-- An outcome that is a next state, with the waiting commands as they were and room in every list that had room (entries 1, 4). -/
def Completes (s : State) (o : Host.Outcome State Fault Refusal) : Prop := ∃ t, o = .next t ∧ StepKeepsRoom s t

theorem completes_next {s t : State} (h : StepKeepsRoom s t) : Completes s (.next t) := ⟨t, rfl, h⟩

/-- A request whose block keeps room where its port has little to send. -/
theorem serve_completes_light {α : Type} {k : Kind} {c : Codec α} {p : Port} {tag : Nat} {body : Body α}
    {block : α → State → Answer} {s : State}
    (h : ∀ f u, (∀ l, p = .lane l → (u.port l).load ≤ 5) → KeepsRoom u (block f u).1) :
    Completes s (serve k c p tag body block s) :=
  completes_next (receive_keepsRoom fun u hu => handle_keepsRoom hu (fun f => h f u) fun _ _ hl => nomatch hl)

theorem serve_completes {α : Type} {k : Kind} {c : Codec α} {p : Port} {tag : Nat} {body : Body α} {block : α → State → Answer}
    {s : State} (h : ∀ f u, KeepsRoom u (block f u).1) : Completes s (serve k c p tag body block s) :=
  serve_completes_light fun f u _ => h f u

theorem serveLane_completes {α : Type} {k : Kind} {c : Codec α} {p : Port} {tag : Nat} {body : Body α}
    {block : Lane → α → State → Answer} {s : State} (h : ∀ l f u, KeepsRoom u (block l f u).1) :
    Completes s (serveLane k c p tag body block s) :=
  serve_completes fun f u => by
    split
    · exact h _ f u
    · exact .refl u

theorem serveStation_completes {α : Type} {k : Kind} {c : Codec α} {p : Port} {tag : Nat} {body : Body α}
    {block : StationNo → α → State → Answer} {s : State} (h : ∀ st f u, KeepsRoom u (block st f u).1) :
    Completes s (serveStation k c p tag body block s) :=
  serveLane_completes fun l f u => by
    split
    · exact h _ f u
    · exact .refl u

/-- SPLIT, which a port with little to send alone can have accepted (R167, R177). -/
theorem execSplit_completes (p : Port) (tag : Nat) (body : Body SplitFields) (s : State) : Completes s (execSplit p tag body s) :=
  serve_completes_light fun f u hu => by
    split
    · exact split_keepsRoom tag _ f u (hu _ rfl)
    · exact .refl u

theorem execSetPort_completes (p : Port) (tag : Nat) (body : Body SetPortFields) (s : State) :
    Completes s (execSetPort p tag body s) :=
  completes_next (receive_keepsRoom fun u hu =>
    handle_keepsRoom hu (fun f _ => setPortRequest_keepsRoom f u) fun _ _ hl => setPortRequest_load hl)

/-- A step that the RESET pin holds back. -/
theorem unheld_completes {s t : State} (h : StepKeepsRoom s t) : Completes s (.next (if s.resetPin then s else t)) := by
  refine completes_next ?_
  split
  · exact .refl s
  · exact h

theorem happen_completes {effect : State → State} {s : State} (h : KeepsRoom s (effect s)) : Completes s (happen effect s) :=
  unheld_completes h.notices

theorem dropWhen_completes (occurs : State → Bool) (p : Port) (n : Nat) (s : State) : Completes s (dropWhen occurs p n s) := by
  refine unheld_completes ?_
  split
  · exact (clockFrame_keepsRoom p n s).step.trans (dropFrame_keepsRoom p _)
  · exact .refl s

theorem beginFrame_keepsRoom (b : StartByte) (s : State) : KeepsRoom s (beginFrame b s) := by
  unfold beginFrame
  split
  · have hclocked := clockFrame_keepsRoom (startPort b) (startTransfers b) s
    generalize startPort b = p at hclocked ⊢
    cases p with
    | office => exact hclocked.same rfl
    | lane l => exact KeepsRoom.setPort hclocked (.of_eq rfl rfl)
  · exact .refl s

/-- A frame dropped whose bytes are a free value (entry 25). -/
theorem drawn_keepsRoom (n : Nat) (s : State) :
    StepKeepsRoom s (dropFrame .office (clockReply n { s with draws := s.draws + 1 })) := by
  have hdrawn : KeepsRoom s { s with draws := s.draws + 1 } := keepsRoom_of_same rfl
  exact (hdrawn.trans (clockReply_keepsRoom n _)).step.trans (dropFrame_keepsRoom .office _)

theorem discardFrame_keepsRoom (s : State) : StepKeepsRoom s (discardFrame s) := by
  unfold discardFrame
  split
  · exact .refl s
  · exact drawn_keepsRoom _ s

theorem overrun_keepsRoom (s : State) : StepKeepsRoom s (overrun s) := by
  unfold overrun
  split
  · exact .refl s
  · exact drawn_keepsRoom _ s

theorem execUnknownKind_completes (p : Port) (tag : Nat) (k : KindAndBody) (s : State) :
    Completes s (execUnknownKind p tag k s) := by
  refine completes_next ?_
  split
  · exact receive_keepsRoom fun u hu => sendReply_keepsRoom _ _ _ hu
  · exact .refl s

/-- A frame sent leaves its lane with less to send (R167). -/
theorem frameGone_keepsRoom (l : Lane) (s : State) : KeepsRoom s (frameGone l s) := by
  refine (KeepsRoom.refl s).setPort (.inr ⟨?_, id⟩)
  simp only [PortEntry.load, List.length_drop]
  omega

theorem exec_completes (c : Instr) (s : State) : Completes s (exec c s) := by
  have hreset (b : Bool) : KeepsRoom s { deviceReset s with resetPin := b } := (deviceReset_keepsRoom s).same rfl
  cases c with
  | powerOn => exact completes_next (deviceReset_keepsRoom s).step
  | resetPin => exact completes_next (hreset false).step
  | resetPinAsserted => exact completes_next (hreset true).step
  | reset p tag body => exact serve_completes fun _ u => deviceReset_keepsRoom u
  | secondTick => exact unheld_completes (tick_keepsRoom s).step
  | lateExpiry n => exact happen_completes (expireLate_keepsRoom n s)
  | claimLapse n => exact happen_completes (lapseClaim_keepsRoom n s)
  | frameTimeout l => exact dropWhen_completes _ _ _ s
  | lengthError p n => exact dropWhen_completes (fun _ => !lengthOk n) p 2 s
  | crcMismatch p bytes crc => exact dropWhen_completes (fun _ => countedBytes bytes && crc16 bytes ≠ crc) p _ s
  | csDeasserted => exact unheld_completes (discardFrame_keepsRoom s)
  | badTagOrKind p tag k => exact dropWhen_completes (fun _ => tag = 0 || 0x80 ≤ k.kind) p _ s
  | unknownKind p tag k => exact execUnknownKind_completes p tag k s
  | transmitListFull l => exact dropWhen_completes _ _ _ s
  | officeRequestOverrun => exact unheld_completes (overrun_keepsRoom s)
  | frameSent l => exact unheld_completes (frameGone_keepsRoom l s).step
  | replyClockedOut => exact unheld_completes (KeepsRoom.step (keepsRoom_of_same rfl))
  | startByteReceived b => exact unheld_completes (beginFrame_keepsRoom b s).step
  | openTab p tag body => exact serveLane_completes openTab_keepsRoom
  | tabView p tag body => exact serve_completes (tabView_keepsRoom p)
  | addLine p tag body => exact serveLane_completes addLine_keepsRoom
  | voidLine p tag body => exact serveLane_completes voidLine_keepsRoom
  | compLine p tag body => exact serveLane_completes compLine_keepsRoom
  | overridePrice p tag body => exact serveLane_completes overridePrice_keepsRoom
  | follow p tag body => exact serveLane_completes follow_keepsRoom
  | unfollow p tag body => exact serveLane_completes unfollow_keepsRoom
  | setService p tag body => exact serve_completes (setService_keepsRoom p)
  | unlock p tag body => exact serveLane_completes unlock_keepsRoom
  | lock p tag body => exact serveLane_completes lock_keepsRoom
  | setPin p tag body => exact serveLane_completes setPin_keepsRoom
  | clearLockout p tag body => exact serveLane_completes clearLockout_keepsRoom
  | fire p tag body => exact serveLane_completes fire_keepsRoom
  | rail p tag body => exact serveStation_completes fun _ _ u => .refl u
  | take p tag body => exact serveStation_completes take_keepsRoom
  | bump p tag body => exact serveStation_completes bump_keepsRoom
  | resume p tag body => exact serveStation_completes resume_keepsRoom
  | recallTicket p tag body => exact serveStation_completes recallTicket_keepsRoom
  | holdLow p tag body => exact serveStation_completes holdLow_keepsRoom
  | pause p tag body => exact serve_completes (pauseOrOpen_keepsRoom .paused p)
  | openStation p tag body => exact serve_completes (pauseOrOpen_keepsRoom .opened p)
  | stationView p tag body => exact serveStation_completes stationView_keepsRoom
  | setStation p tag body => exact serve_completes setStation_keepsRoom
  | passSupervisor p tag body => exact serve_completes (passSupervisor_keepsRoom p)
  | reclaim p tag body => exact serve_completes reclaim_keepsRoom
  | approvalList p tag body => exact serve_completes (approvalList_keepsRoom p)
  | approve p tag body => exact serve_completes (approve_keepsRoom p)
  | deny p tag body => exact serve_completes (deny_keepsRoom p)
  | withdraw p tag body => exact serveLane_completes withdraw_keepsRoom
  | results p tag body => exact serveLane_completes results_keepsRoom
  | split p tag body => exact execSplit_completes p tag body s
  | splitBegin => exact happen_completes (takeUp_keepsRoom s)
  | splitCompletion => exact happen_completes (complete_keepsRoom s)
  | shareView p tag body => exact serve_completes (shareView_keepsRoom p)
  | tender p tag body => exact serveLane_completes tender_keepsRoom
  | undoTender p tag body => exact serveLane_completes undoTender_keepsRoom
  | dropSplit p tag body => exact serveLane_completes dropSplit_keepsRoom
  | adopt p tag body => exact serveLane_completes adopt_keepsRoom
  | takeClosed p tag body => exact serve_completes takeClosed_keepsRoom
  | loadItem p tag body => exact serve_completes loadItem_keepsRoom
  | withdrawItem p tag body => exact serve_completes withdrawItem_keepsRoom
  | loadModifier p tag body => exact serve_completes loadModifier_keepsRoom
  | setTaxRate p tag body => exact serve_completes setTaxRate_keepsRoom
  | setGroupPriority p tag body => exact serve_completes setGroupPriority_keepsRoom
  | setCount p tag body => exact serve_completes (setCount_keepsRoom p)
  | availability p tag body => exact serve_completes availability_keepsRoom
  | setPort p tag body => exact execSetPort_completes p tag body s
  | events p tag body => exact serve_completes_light (events_keepsRoom p)
  | setMask p tag body => exact serve_completes_light (setMask_keepsRoom p)
  | setClock p tag body => exact serve_completes fun _ _ => keepsRoom_of_same rfl
  | status p tag body => exact serve_completes fun _ u => .refl u

theorem exec_keepsRoom {c : Instr} {s t : State} (h : exec c s = .next t) : StepKeepsRoom s t := by
  obtain ⟨u, hu, hkeeps⟩ := exec_completes c s
  cases h.symm.trans hu
  exact hkeeps

/-- Settles O2: each request is answered or dropped by the port interface whatever its block does, each other row is a next state by
its meaning, and none touches the queue. -/
theorem everyCommandCompletes : Obligations.EveryCommandCompletes := fun c s => by
  obtain ⟨t, ht, hkeeps⟩ := exec_completes c s
  exact ⟨t, ht, hkeeps.pending⟩

/-- Settles O57: a frame is taken only while its lane has fewer than six frames to send, which leaves room for its reply, for a withheld
SPLIT reply and for a notice; each list that a command extends was tested for room first. -/
theorem transmitListsKeepRoom : Obligations.TransmitListsKeepRoom := by
  refine ⟨⟨kept_of_exec (fun _ _ => id) fun _ _ _ hs ht => (exec_keepsRoom ht).transmit hs, fun s l hs => ?_⟩,
    kept_of_exec (fun _ _ => id) fun _ _ _ hs ht => (exec_keepsRoom ht).lists hs⟩
  have hload := (roomy_iff _).mp (hs l)
  unfold PortEntry.load at hload
  omega

end Sys2Proof.Machine
end

section
/-! SUPPORT. Reading what was written (R172, R174, R176, R178): the codecs from the number up to each body, the frame around a body,
and the request that its bytes are. -/

namespace Sys2Proof

open Sys2Proof.Machine

/-! ### A value read back from the bytes it is written as (R178) -/

/-- Every value that fits is read back from its bytes, with the bytes after it left. -/
def Codec.Reads {α : Type} (c : Codec α) (fits : α → Bool) : Prop :=
  ∀ a rest, fits a = true → c.get (c.put a ++ rest) = some (a, rest)

theorem Codec.Reads.mono {α : Type} {c : Codec α} {fits fits' : α → Bool} (h : c.Reads fits)
    (hf : ∀ a, fits' a = true → fits a = true) : c.Reads fits' := fun a rest ha => h a rest (hf a ha)

theorem byte_reads : byteCodec.Reads fits8 := fun n rest h => by
  have hn : n < 256 := of_decide_eq_true h
  simp [byteCodec, u8, getU8, Nat.mod_eq_of_lt hn]

theorem half_reads : halfCodec.Reads fits16 := fun n rest h => by
  have hn : n < 65536 := of_decide_eq_true h
  simp only [halfCodec, u16, getU16, List.cons_append, List.nil_append, BitVec.toNat_ofNat, Option.some.injEq, Prod.mk.injEq,
    and_true]
  omega

theorem word_reads : wordCodec.Reads fits32 := fun n rest h => by
  have hn : n < 4294967296 := of_decide_eq_true h
  simp only [wordCodec, u32, getU32, List.cons_append, List.nil_append, BitVec.toNat_ofNat, Option.some.injEq, Prod.mk.injEq,
    and_true]
  omega

theorem getFlag_u8 (b : Bool) (rest : List Byte) : getFlag (u8 b.toNat ++ rest) = some (b, rest) := by cases b <;> rfl

theorem flag_reads : flagCodec.Reads fun _ => true := fun b rest _ => getFlag_u8 b rest

theorem unit_reads : unitCodec.Reads noField := fun _ _ _ => rfl

/-- A modifier delta is read back from its two's complement (R178). -/
theorem delta_reads : deltaCodec.Reads fitsSigned16 := fun d rest h => by
  have hd : -32768 ≤ d ∧ d < 32768 := by simpa [fitsSigned16] using h
  have hfits : fits16 (d % 65536).toNat = true := decide_eq_true (by omega)
  have hread := half_reads (d % 65536).toNat rest hfits
  have hsigned : signed16 (d % 65536).toNat = d := by
    unfold signed16
    split <;> omega
  have hget : getU16 (u16 (d % 65536).toNat ++ rest) = some ((d % 65536).toNat, rest) := hread
  simp only [deltaCodec, hget, Option.map_some, hsigned]

theorem pair_reads {α β : Type} {a : Codec α} {b : Codec β} {p : α → Bool} {q : β → Bool} (ha : a.Reads p) (hb : b.Reads q) :
    (pairCodec a b).Reads fun x => p x.1 && q x.2 := fun x rest h => by
  simp only [Bool.and_eq_true] at h
  obtain ⟨h1, h2⟩ := h
  simp [pairCodec, ha _ _ h1, hb _ _ h2]

theorem optional_reads {α : Type} {a : Codec α} {p : α → Bool} (ha : a.Reads p) : (optionalCodec a).Reads fun o => o.all p :=
  fun o rest h => by
    cases o with
    | none =>
      have hflag : getFlag (u8 0 ++ rest) = some (false, rest) := getFlag_u8 false rest
      simp [optionalCodec, hflag]
    | some x =>
      have hflag : getFlag (u8 1 ++ (a.put x ++ rest)) = some (true, a.put x ++ rest) := getFlag_u8 true _
      simp only [optionalCodec, List.append_assoc, hflag, Option.bind_some, if_true, ha x rest h, Option.map_some]

theorem many_reads {α : Type} {a : Codec α} {p : α → Bool} (ha : a.Reads p) (l : List α) (rest : List Byte) (h : l.all p = true) :
    getMany a l.length (l.flatMap a.put ++ rest) = some (l, rest) := by
  induction l with
  | nil => rfl
  | cons x xs ih =>
    rw [List.all_cons, Bool.and_eq_true] at h
    obtain ⟨hx, hxs⟩ := h
    rw [List.flatMap_cons, List.append_assoc, List.length_cons, getMany, ha _ _ hx, Option.bind_some, ih hxs, Option.map_some]

/-- A list is read back when its length fits its count byte (R178). -/
theorem list_reads {α : Type} {a : Codec α} {p : α → Bool} (ha : a.Reads p) :
    (listCodec a).Reads fun l => l.all p && fits8 l.length := fun l rest h => by
  rw [Bool.and_eq_true] at h
  obtain ⟨hall, hlen⟩ := h
  have hcount : getU8 (u8 l.length ++ (l.flatMap a.put ++ rest)) = some (l.length, l.flatMap a.put ++ rest) :=
    byte_reads _ _ hlen
  simp only [listCodec, List.append_assoc, hcount, Option.bind_some, many_reads ha l rest hall]

theorem record_reads {α β : Type} {a : Codec α} {make : α → β} {parts : β → α} {p : α → Bool} (ha : a.Reads p)
    (hm : ∀ r, make (parts r) = r) : (recordCodec a make parts).Reads fun r => p (parts r) := fun r rest h => by
  simp [recordCodec, ha _ _ h, hm]

/-! ### The body of each request (R178) -/

theorem openTabCodec_reads : openTabCodec.Reads OpenTabFields.fits :=
  record_reads (pair_reads half_reads (optional_reads word_reads)) fun _ => rfl

theorem tabPageCodec_reads : tabPageCodec.Reads TabPageFields.fits := record_reads (pair_reads half_reads byte_reads) fun _ => rfl

theorem addLineCodec_reads : addLineCodec.Reads AddLineFields.fits :=
  (record_reads
    (pair_reads half_reads (pair_reads half_reads (pair_reads (optional_reads byte_reads) (pair_reads (optional_reads byte_reads)
      (list_reads byte_reads))))) fun _ => rfl).mono fun f hf => by
    simp only [AddLineFields.fits, Bool.and_eq_true] at hf
    obtain ⟨⟨⟨⟨⟨htab, hitem⟩, hquantity⟩, hseat⟩, hmods⟩, hsize⟩ := hf
    have hle : 5 + optionalSize 1 f.quantity + optionalSize 1 f.seat + f.mods.length ≤ 248 := of_decide_eq_true hsize
    have hlen : fits8 f.mods.length = true := decide_eq_true (by omega)
    simp only [htab, hitem, hquantity, hseat, hmods, hlen, Bool.and_self]

theorem voidLineCodec_reads : voidLineCodec.Reads VoidLineFields.fits :=
  record_reads (pair_reads half_reads byte_reads) fun _ => rfl

theorem compLineCodec_reads : compLineCodec.Reads CompLineFields.fits :=
  (record_reads (pair_reads half_reads (pair_reads byte_reads byte_reads)) fun _ => rfl).mono fun f hf => by
    simpa only [CompLineFields.fits, Bool.and_assoc] using hf

theorem overridePriceCodec_reads : overridePriceCodec.Reads OverridePriceFields.fits :=
  (record_reads (pair_reads half_reads (pair_reads byte_reads (pair_reads (optional_reads word_reads) byte_reads)))
    fun _ => rfl).mono fun f hf => by simpa only [OverridePriceFields.fits, Bool.and_assoc] using hf

theorem setServiceCodec_reads : setServiceCodec.Reads SetServiceFields.fits :=
  record_reads (pair_reads half_reads half_reads) fun _ => rfl

theorem tabPinCodec_reads : tabPinCodec.Reads TabPinFields.fits :=
  record_reads (pair_reads half_reads (optional_reads word_reads)) fun _ => rfl

theorem clearLockoutCodec_reads : clearLockoutCodec.Reads ClearLockoutFields.fits :=
  record_reads (pair_reads half_reads byte_reads) fun _ => rfl

/-- An optional list short enough for a body is short enough for its count byte. -/
theorem listFits_of_short {α : Type} {p : α → Bool} {short : List α → Bool} {o : Option (List α)}
    (hs : ∀ l, short l = true → l.length < 256) (h : o.all (fun l => l.all p && short l) = true) :
    o.all (fun l => l.all p && fits8 l.length) = true := by
  cases o with
  | none => rfl
  | some l =>
    simp only [Option.all_some, Bool.and_eq_true] at h ⊢
    exact ⟨h.1, decide_eq_true (hs l h.2)⟩

theorem fireCodec_reads : fireCodec.Reads FireFields.fits :=
  (record_reads (pair_reads half_reads (optional_reads (list_reads byte_reads))) fun _ => rfl).mono fun f hf => by
    obtain ⟨htab, hgroups⟩ := Bool.and_eq_true_iff.mp hf
    refine Bool.and_eq_true_iff.mpr ⟨htab, listFits_of_short (fun l hl => ?_) hgroups⟩
    have hle : 4 + l.length ≤ 248 := of_decide_eq_true hl
    omega

theorem setStationCodec_reads : setStationCodec.Reads SetStationFields.fits :=
  (record_reads (pair_reads byte_reads (pair_reads byte_reads (pair_reads (optional_reads byte_reads) half_reads)))
    fun _ => rfl).mono fun f hf => by simpa only [SetStationFields.fits, Bool.and_assoc] using hf

theorem splitCodec_reads : splitCodec.Reads SplitFields.fits :=
  (record_reads (pair_reads half_reads (pair_reads byte_reads (pair_reads (optional_reads byte_reads)
    (optional_reads (list_reads (pair_reads byte_reads byte_reads)))))) fun _ => rfl).mono fun f hf => by
    simp only [SplitFields.fits, Bool.and_eq_true] at hf
    obtain ⟨⟨⟨htab, hmode⟩, hcount⟩, hmap⟩ := hf
    have hlist := listFits_of_short (p := fun q : Nat × Nat => fits8 q.1 && fits8 q.2) (fun l hl => by
      have hle : 7 + 2 * l.length ≤ 248 := of_decide_eq_true hl
      omega) hmap
    simp only [htab, hmode, hcount, hlist, Bool.and_self]

theorem tenderCodec_reads : tenderCodec.Reads TenderFields.fits :=
  (record_reads (pair_reads half_reads (pair_reads byte_reads (pair_reads byte_reads (pair_reads (optional_reads word_reads)
    (optional_reads word_reads))))) fun _ => rfl).mono fun f hf => by simpa only [TenderFields.fits, Bool.and_assoc] using hf

theorem undoTenderCodec_reads : undoTenderCodec.Reads UndoTenderFields.fits :=
  (record_reads (pair_reads half_reads (pair_reads byte_reads byte_reads)) fun _ => rfl).mono fun f hf => by
    simpa only [UndoTenderFields.fits, Bool.and_assoc] using hf

theorem loadItemCodec_reads : loadItemCodec.Reads LoadItemFields.fits :=
  (record_reads (pair_reads half_reads (pair_reads word_reads (pair_reads byte_reads (pair_reads byte_reads
    (pair_reads byte_reads (pair_reads byte_reads half_reads)))))) fun _ => rfl).mono fun f hf => by
    simpa only [LoadItemFields.fits, Bool.and_assoc] using hf

theorem loadModifierCodec_reads : loadModifierCodec.Reads LoadModifierFields.fits :=
  record_reads (pair_reads byte_reads delta_reads) fun _ => rfl

theorem setTaxRateCodec_reads : setTaxRateCodec.Reads SetTaxRateFields.fits :=
  record_reads (pair_reads byte_reads half_reads) fun _ => rfl

theorem setGroupPriorityCodec_reads : setGroupPriorityCodec.Reads SetGroupPriorityFields.fits :=
  record_reads (pair_reads byte_reads byte_reads) fun _ => rfl

theorem setCountCodec_reads : setCountCodec.Reads SetCountFields.fits :=
  record_reads (pair_reads half_reads half_reads) fun _ => rfl

theorem setPortCodec_reads : setPortCodec.Reads SetPortFields.fits :=
  (record_reads (pair_reads byte_reads (pair_reads byte_reads (pair_reads (optional_reads byte_reads)
    (pair_reads flag_reads flag_reads)))) fun _ => rfl).mono fun f hf => by
    simpa only [SetPortFields.fits, Bool.and_assoc, Bool.and_true] using hf

/-- The body of PAUSE and OPEN is read by the port it comes from (R102; entry 15). -/
theorem workingCodec_reads (p : Port) : (workingCodec p).Reads (workingFits p) := fun f rest h => by
  cases p with
  | lane l =>
    obtain rfl : f = none := Option.isNone_iff_eq_none.mp h
    rfl
  | office =>
    cases f with
    | none => exact absurd h (by decide)
    | some n => simp [workingCodec, recordCodec, show byteCodec.get (byteCodec.put n ++ rest) = _ from byte_reads n rest h]

/-! ### The frame around a body (R172, R174) -/

theorem crcOf_crcBytes (c : BitVec 16) : crcOf (crcBytes c) = c := by
  apply BitVec.eq_of_toNat_eq
  have := c.isLt
  simp only [crcOf, crcBytes, BitVec.toNat_ofNat]
  omega

/-- The bytes of a frame are a frame with a matching CRC, whatever stands between length and CRC (R172, R174). -/
theorem commandOf_wrapFrame (p : Port) {content : List Byte} (h1 : 2 ≤ content.length) (h2 : content.length ≤ 250) :
    commandOf p (wrapFrame content) = received p content := by
  have hlen : (BitVec.ofNat 8 content.length).toNat = content.length := by
    rw [BitVec.toNat_ofNat]
    exact Nat.mod_eq_of_lt (by omega)
  have hok : lengthOk content.length = true := by simp [lengthOk, h1, h2]
  have hcrc (c : BitVec 16) : (crcBytes c).length = 2 := rfl
  simp [commandOf, wrapFrame, hlen, hok, hcrc, crcOf_crcBytes]

theorem kindOfCode_kindCode (k : Kind) : kindOfCode (kindCode k) = some k := by cases k <;> rfl

theorem kindCode_lt (k : Kind) : kindCode k < 128 := by cases k <;> decide

/-- A frame with a request's tag and kind is that request (R176). -/
theorem received_request (p : Port) (k : Kind) {tag : Nat} (ht : tagOk tag = true) (body : List Byte) :
    received p (u8 tag ++ u8 (kindCode k) ++ body) = some (requestOf k p tag body) := by
  have htag : 1 ≤ tag ∧ tag < 256 := by simpa [tagOk] using ht
  have hkind := kindCode_lt k
  have h1 : (BitVec.ofNat 8 tag).toNat = tag := by
    rw [BitVec.toNat_ofNat]
    exact Nat.mod_eq_of_lt htag.2
  have h2 : (BitVec.ofNat 8 (kindCode k)).toNat = kindCode k := by
    rw [BitVec.toNat_ofNat]
    exact Nat.mod_eq_of_lt (by omega)
  have hno : ¬(tag = 0 ∨ 0x80 ≤ kindCode k) := by omega
  simp only [u8, List.cons_append, List.nil_append, received, h1, h2, if_neg hno, kindOfCode_kindCode]

theorem readBody_put {α : Type} {c : Codec α} {fits : α → Bool} (hc : c.Reads fits) {f : α} (hf : fits f = true) :
    readBody c (c.put f) = .fields f := by
  have hread := hc f [] hf
  rw [List.append_nil] at hread
  rw [readBody, hread]

/-- A well-formed request of a kind is what the bytes of its frame are read as. -/
theorem request_roundTrip {α : Type} {k : Kind} {c : Codec α} {fits : α → Bool} {make : Body α → Instr} {p q : Port} {tag : Nat}
    {body : Body α} {bytes : List Byte} (hc : c.Reads fits) (hshort : ∀ f, fits f = true → (c.put f).length ≤ 248)
    (hmake : ∀ bs, requestOf k q tag bs = make (readBody c bs)) (hw : requestOk tag body fits = true) (hp : some q = some p)
    (hb : requestFrame k c tag body = some bytes) : commandOf p bytes = some (make body) := by
  obtain rfl := Option.some.inj hp
  cases body with
  | unread _ => cases hb
  | fields f =>
    obtain rfl := Option.some.inj hb
    obtain ⟨ht, hf⟩ := Bool.and_eq_true_iff.mp hw
    have hlen := hshort f hf
    rw [commandOf_wrapFrame q (by simp [u8]) (by simp [u8]; omega), received_request q k ht, hmake, readBody_put hc hf]

/-- Settles O11: each codec reads back what it writes, and the frame around a body is a frame of its length with its CRC. -/
theorem frameRoundTrip : Obligations.FrameRoundTrip := by
  intro c p bytes hw hp hb
  cases c with
  | powerOn | resetPin | secondTick | csDeasserted | officeRequestOverrun | replyClockedOut | splitBegin | splitCompletion
  | resetPinAsserted | lateExpiry | claimLapse | frameTimeout | transmitListFull | frameSent | startByteReceived | lengthError
  | crcMismatch | badTagOrKind | unknownKind => cases hb
  | openTab => exact request_roundTrip openTabCodec_reads openTabCodec_short (fun _ => rfl) hw hp hb
  | tabView | shareView => exact request_roundTrip tabPageCodec_reads (fun f _ => tabPageCodec_short f) (fun _ => rfl) hw hp hb
  | addLine => exact request_roundTrip addLineCodec_reads addLineCodec_short (fun _ => rfl) hw hp hb
  | voidLine => exact request_roundTrip voidLineCodec_reads (fun f _ => voidLineCodec_short f) (fun _ => rfl) hw hp hb
  | compLine => exact request_roundTrip compLineCodec_reads (fun f _ => compLineCodec_short f) (fun _ => rfl) hw hp hb
  | overridePrice => exact request_roundTrip overridePriceCodec_reads overridePriceCodec_short (fun _ => rfl) hw hp hb
  | follow | unfollow | lock | recallTicket | dropSplit | adopt | withdrawItem | availability | setMask =>
    exact request_roundTrip half_reads (fun f _ => halfCodec_short f) (fun _ => rfl) hw hp hb
  | setService => exact request_roundTrip setServiceCodec_reads (fun f _ => setServiceCodec_short f) (fun _ => rfl) hw hp hb
  | unlock | setPin => exact request_roundTrip tabPinCodec_reads tabPinCodec_short (fun _ => rfl) hw hp hb
  | clearLockout => exact request_roundTrip clearLockoutCodec_reads (fun f _ => clearLockoutCodec_short f) (fun _ => rfl) hw hp hb
  | fire => exact request_roundTrip fireCodec_reads fireCodec_short (fun _ => rfl) hw hp hb
  | rail | take | bump | resume | reclaim | results | takeClosed | events | status | reset =>
    exact request_roundTrip unit_reads (fun f _ => unitCodec_short f) (fun _ => rfl) hw hp hb
  | holdLow | stationView | passSupervisor | approvalList | approve | deny | withdraw =>
    exact request_roundTrip byte_reads (fun f _ => byteCodec_short f) (fun _ => rfl) hw hp hb
  | pause | openStation => exact request_roundTrip (workingCodec_reads _) (workingCodec_short _) (fun _ => rfl) hw hp hb
  | setStation => exact request_roundTrip setStationCodec_reads setStationCodec_short (fun _ => rfl) hw hp hb
  | split => exact request_roundTrip splitCodec_reads splitCodec_short (fun _ => rfl) hw hp hb
  | tender => exact request_roundTrip tenderCodec_reads tenderCodec_short (fun _ => rfl) hw hp hb
  | undoTender => exact request_roundTrip undoTenderCodec_reads (fun f _ => undoTenderCodec_short f) (fun _ => rfl) hw hp hb
  | loadItem => exact request_roundTrip loadItemCodec_reads (fun f _ => loadItemCodec_short f) (fun _ => rfl) hw hp hb
  | loadModifier => exact request_roundTrip loadModifierCodec_reads (fun f _ => loadModifierCodec_short f) (fun _ => rfl) hw hp hb
  | setTaxRate => exact request_roundTrip setTaxRateCodec_reads (fun f _ => setTaxRateCodec_short f) (fun _ => rfl) hw hp hb
  | setGroupPriority =>
    exact request_roundTrip setGroupPriorityCodec_reads (fun f _ => setGroupPriorityCodec_short f) (fun _ => rfl) hw hp hb
  | setCount => exact request_roundTrip setCountCodec_reads (fun f _ => setCountCodec_short f) (fun _ => rfl) hw hp hb
  | setPort => exact request_roundTrip setPortCodec_reads setPortCodec_short (fun _ => rfl) hw hp hb
  | setClock => exact request_roundTrip word_reads (fun f _ => wordCodec_short f) (fun _ => rfl) hw hp hb

end Sys2Proof
end

section
/-! SUPPORT. A request by its kind, its bytes and its port: the size of its frame, the checks before its owning block, and the
answers of the port interface (R172, R175 to R177). -/

namespace Sys2Proof.Machine

/-! ### A reply that raises nothing -/

/-- A reply after which no event is raised sends no notice. -/
theorem gains_nothing (frames : List Frame) (e : PortEntry) : e.gains frames 0#12 = { e with transmit := e.transmit ++ frames } := by
  by_cases h : e.pendingSet = 0 <;> simp_all [PortEntry.gains, PortEntry.pendingSet]

theorem huntAgain_officeReceiver (p : Port) (s : State) :
    (huntAgain p s).officeReceiver = if p = .office then .hunting else s.officeReceiver := by cases p <;> rfl

/-- A reply sent on a port that hunts again is the whole of an answer that raises nothing (R167, R176). -/
theorem sendReply_answered (p : Port) (tag code : Nat) (status : Status) (body : List Field) (s : State) :
    sendReply p tag code ⟨status, body⟩ (huntAgain p s) = s.answered p tag code status body nobody := by
  have hp : (sendReply p tag code ⟨status, body⟩ (huntAgain p s)).ports = (s.answered p tag code status body nobody).ports :=
    table_ext fun l => by
      refine (sendReply_port p tag code ⟨status, body⟩ (huntAgain p s) l).trans (Eq.trans ?_ (tableOf_get _ l).symm)
      rw [huntAgain_port]
      by_cases h : p = .lane l <;> simp [h, nobody, gains_nothing]
  refine (congrArg (fun x => { sendReply p tag code ⟨status, body⟩ (huntAgain p s) with ports := x }) hp).trans ?_
  cases p <;> simp [sendReply, sendFrame, State.answered, State.setPort, nobody, huntAgain, State.setReceiver]

/-! ### The request that the bytes of a frame are (R176) -/

/-- The body of PAUSE and OPEN read from bytes is the fields of its port already (R102; entry 15). -/
theorem workingBody_readBody (p : Port) (bytes : List Byte) :
    workingBody p (readBody (workingCodec p) bytes) = readBody (workingCodec p) bytes := by
  cases p with
  | lane l => cases bytes <;> rfl
  | office =>
    match bytes with
    | [] => rfl
    | [_] => rfl
    | _ :: _ :: _ => rfl

/-- A command that is a received request of a kind: its frame goes through the checks of `receive` and `handle`, with the body
read from the frame's bytes. -/
def IsRequest (k : Kind) (p : Port) (tag : Nat) (bytes : List Byte) (i : Instr) : Prop :=
  ∃ (α : Type) (c : Codec α) (fresh : α → State → Option Lane) (block : α → State → Answer),
    c.exact
      ∧ (∀ s, exec i s = .next (receive p (requestSize c (readBody c bytes)) s (handle k p tag (readBody c bytes) fresh block)))
      ∧ frameOf i = requestFrame k c tag (readBody c bytes)

/-- Every kind of request goes through the checks of the port interface (R176, R177). -/
theorem isRequest_requestOf (k : Kind) (p : Port) (tag : Nat) (bytes : List Byte) :
    IsRequest k p tag bytes (requestOf k p tag bytes) := by
  cases k with
  | openTab => exact ⟨_, _, _, _, openTabCodec_exact, fun _ => rfl, rfl⟩
  | tabView | shareView => exact ⟨_, _, _, _, tabPageCodec_exact, fun _ => rfl, rfl⟩
  | addLine => exact ⟨_, _, _, _, addLineCodec_exact, fun _ => rfl, rfl⟩
  | voidLine => exact ⟨_, _, _, _, voidLineCodec_exact, fun _ => rfl, rfl⟩
  | compLine => exact ⟨_, _, _, _, compLineCodec_exact, fun _ => rfl, rfl⟩
  | overridePrice => exact ⟨_, _, _, _, overridePriceCodec_exact, fun _ => rfl, rfl⟩
  | follow | unfollow | lock | recallTicket | dropSplit | adopt | withdrawItem | availability
  | setMask => exact ⟨_, _, _, _, half_exact, fun _ => rfl, rfl⟩
  | setService => exact ⟨_, _, _, _, setServiceCodec_exact, fun _ => rfl, rfl⟩
  | unlock | setPin => exact ⟨_, _, _, _, tabPinCodec_exact, fun _ => rfl, rfl⟩
  | clearLockout => exact ⟨_, _, _, _, clearLockoutCodec_exact, fun _ => rfl, rfl⟩
  | fire => exact ⟨_, _, _, _, fireCodec_exact, fun _ => rfl, rfl⟩
  | rail | take | bump | resume | reclaim | results | takeClosed | events | status
  | reset => exact ⟨_, _, _, _, unit_exact, fun _ => rfl, rfl⟩
  | holdLow | stationView | passSupervisor | approvalList | approve | deny
  | withdraw => exact ⟨_, _, _, _, byte_exact, fun _ => rfl, rfl⟩
  | pause =>
    exact ⟨_, _, _, _, workingCodec_exact p, fun s => congrArg
      (fun body => serve .pause (workingCodec p) p tag body (pauseOrOpen .paused p) s) (workingBody_readBody p bytes), rfl⟩
  | openStation =>
    exact ⟨_, _, _, _, workingCodec_exact p, fun s => congrArg
      (fun body => serve .openStation (workingCodec p) p tag body (pauseOrOpen .opened p) s) (workingBody_readBody p bytes), rfl⟩
  | setStation => exact ⟨_, _, _, _, setStationCodec_exact, fun _ => rfl, rfl⟩
  | split => exact ⟨_, _, _, _, splitCodec_exact, fun _ => rfl, rfl⟩
  | tender => exact ⟨_, _, _, _, tenderCodec_exact, fun _ => rfl, rfl⟩
  | undoTender => exact ⟨_, _, _, _, undoTenderCodec_exact, fun _ => rfl, rfl⟩
  | loadItem => exact ⟨_, _, _, _, loadItemCodec_exact, fun _ => rfl, rfl⟩
  | loadModifier => exact ⟨_, _, _, _, loadModifierCodec_exact, fun _ => rfl, rfl⟩
  | setTaxRate => exact ⟨_, _, _, _, setTaxRateCodec_exact, fun _ => rfl, rfl⟩
  | setGroupPriority => exact ⟨_, _, _, _, setGroupPriorityCodec_exact, fun _ => rfl, rfl⟩
  | setCount => exact ⟨_, _, _, _, setCountCodec_exact, fun _ => rfl, rfl⟩
  | setPort => exact ⟨_, _, _, _, setPortCodec_exact, fun _ => rfl, rfl⟩
  | setClock => exact ⟨_, _, _, _, word_exact, fun _ => rfl, rfl⟩

theorem requestFrame_eq_none {α : Type} {k : Kind} {c : Codec α} {tag : Nat} {body : Body α} :
    requestFrame k c tag body = none ↔ ∃ bytes, body = .unread bytes := by
  cases body <;> simp [requestFrame]

end Sys2Proof.Machine
end

section
/-! The frames that begin and end, and those that are dropped or turned away (R167, R173, R175 to R177). -/

namespace Sys2Proof.Machine

/-! ### Requests that reach no owning block (R176, R177) -/

/-- Settles O10: the checks of `handle` before the owning block, each with an answer of the port interface alone. -/
theorem requestsTurnedAway : Obligations.RequestsTurnedAway := by
  intro k p tag bytes s hr ht ho hc
  obtain ⟨α, c, fresh, block, -, hexec, hframe⟩ := isRequest_requestOf k p tag bytes
  rw [hexec, hframe, receive_taken _ hr ho hc]
  refine ⟨fun hnone => ?_, fun hsome hbusy => ?_, fun hsome hidle hnot => ?_⟩
  · obtain ⟨unreadable, hbody⟩ := requestFrame_eq_none.mp hnone
    simp only [handle, hbody, if_neg ht, sendReply_answered]
  · cases hbody : readBody c bytes with
    | unread xs => exact absurd (requestFrame_eq_none.mpr ⟨xs, hbody⟩) hsome
    | fields f => simp only [handle, if_neg ht, huntAgain_awaitsReply, hbusy, if_true, sendReply_answered]
  · cases hbody : readBody c bytes with
    | unread xs => exact absurd (requestFrame_eq_none.mpr ⟨xs, hbody⟩) hsome
    | fields f =>
      simp only [handle, if_neg ht, huntAgain_awaitsReply, huntAgain_mayRequest, hidle, hnot, Bool.false_eq_true, if_false,
        sendReply_answered]

/-! ### Frames dropped (R167, R173, R175, R176) -/

theorem dropWhen_occurs {occurs : State → Bool} {p : Port} {n : Nat} {s : State} (hr : s.resetPin = false)
    (h : occurs (s.frameClocked p n) = true) : dropWhen occurs p n s = .next ((s.frameClocked p n).dropped p) := by
  simp only [dropWhen, clockFrame_eq, dropFrame_eq, hr, h, Bool.false_eq_true, if_false, if_true]

theorem lengthOk_iff {n : Nat} : lengthOk n = true ↔ 2 ≤ n ∧ n ≤ 250 := by simp [lengthOk]

/-- A frame of the office that an event drops after a number of its bytes. -/
theorem discardFrame_inFrame {s : State} {n : Nat} (h : s.officeReceiver = .inFrame n) :
    discardFrame s =
      (State.clockedOut (Config.transfers s.draws % 253) { s with draws := s.draws + 1 }).dropped .office := by
  simp only [discardFrame, h, clockReply_eq, dropFrame_eq]

/-- An overrun request leaves a part of the reply: it brings at least the bytes of the shortest request, and fewer than are left
(R172, R175). -/
theorem overrun_eq {s : State} {f : Frame} (hf : s.replySlot = some f)
    (hpart : s.replyPosition + (6 - s.startCounted) < (frameBytes f).length) :
    ∃ k, 6 ≤ k + s.startCounted ∧ k + s.startCounted ≤ 254 ∧ s.replyPosition + k < (frameBytes f).length
      ∧ overrun s = State.dropped .office { s with replyPosition := s.replyPosition + k, draws := s.draws + 1 } := by
  have hcounted : s.startCounted ≤ 1 := by
    unfold State.startCounted
    split <;> omega
  obtain ⟨left, hleft⟩ : ∃ left, (frameBytes f).length - s.replyPosition = left := ⟨_, rfl⟩
  obtain ⟨more, hmore⟩ : ∃ more, min (254 - s.startCounted) (left - 1) - (6 - s.startCounted) = more := ⟨_, rfl⟩
  have hdraw : Config.transfers s.draws % (more + 1) ≤ more := Nat.le_of_lt_succ (Nat.mod_lt _ (Nat.succ_pos more))
  have hbytes : overrunBytes s = some (6 - s.startCounted, more) := by
    have hroom : 7 ≤ left + s.startCounted := by omega
    unfold overrunBytes
    rw [hf]
    show (if 7 ≤ (frameBytes f).length - s.replyPosition + s.startCounted then _ else _) = _
    rw [hleft, if_pos hroom, ← hmore]
    rfl
  refine ⟨6 - s.startCounted + Config.transfers s.draws % (more + 1), by omega, by omega, by omega, ?_⟩
  have hkept : s.replyPosition + (6 - s.startCounted + Config.transfers s.draws % (more + 1)) < (frameBytes f).length := by omega
  simp only [overrun, hbytes, clockReply_eq, dropFrame_eq, State.clockedOut, hf, if_pos hkept]

/-- Settles O8: each dropping row is `dropFrame` where its event occurs. -/
theorem badFramesAreDropped : Obligations.BadFramesAreDropped := by
  intro s hr
  refine ⟨fun p n hn => ?_, fun p n rest crc h2 h250 hlen hcrc => ?_, fun p tag kind body hbad => ?_, fun l n hin hn => ?_,
    fun n hin => ?_, fun l hfull => ?_, fun f hf hpart => ?_⟩
  · have hbad : (!lengthOk n) = true := by
      rw [Bool.not_eq_true', ← Bool.not_eq_true, lengthOk_iff]
      omega
    exact dropWhen_occurs (occurs := fun _ => !lengthOk n) hr hbad
  · have hbad : (countedBytes (n :: rest) && crc16 (n :: rest) ≠ crc) = true := by
      simp [countedBytes, lengthOk_iff.mpr ⟨h2, h250⟩, hlen, hcrc]
    have hsize : frameSize ((n :: rest).length - 1) = n.toNat + 4 := by rw [List.length_cons, hlen]; rfl
    rw [← hsize]
    exact dropWhen_occurs (occurs := fun _ => countedBytes (n :: rest) && crc16 (n :: rest) ≠ crc) hr hbad
  · have hsize : frameSize (2 + body.length) = body.length + 6 := by unfold frameSize; omega
    rw [← hsize]
    exact dropWhen_occurs (occurs := fun _ => tag = 0 || 0x80 ≤ kind) hr (by simpa using hbad)
  · have hoverdue : overdue (.lane l) s = true := by
      simp only [overdue, hin]
      exact decide_eq_true hn
    exact dropWhen_occurs (p := .lane l) (n := 0) hr hoverdue
  · refine ⟨Config.transfers s.draws % 253, by omega, ?_⟩
    rw [← discardFrame_inFrame hin]
    exact congrArg Host.Outcome.next (if_neg (by simp [hr]))
  · have hcongested : congested (.lane l) s = true := decide_eq_true hfull
    exact dropWhen_occurs (p := .lane l) (n := 0) hr hcongested
  · obtain ⟨k, h6, h254, hkept, he⟩ := overrun_eq hf hpart
    refine ⟨k, h6, h254, hkept, ?_⟩
    rw [← he]
    exact congrArg Host.Outcome.next (if_neg (by simp [hr]))

/-! ### Frames begun, sent and clocked out (R167, R173, R175) -/

theorem kindOfCode_eq_none {code : Nat} (h : ∀ k, kindCode k ≠ code) : kindOfCode code = none :=
  List.find?_eq_none.mpr fun k _ => by simpa using h k

theorem execUnknownKind_unknown {p : Port} {tag kind : Nat} (body : List Byte) (s : State) (ht : tag ≠ 0) (hk : kind < 0x80)
    (hnone : ∀ k, kindCode k ≠ kind) :
    execUnknownKind p tag ⟨kind, body⟩ s
      = .next (receive p (body.length + 6) s (sendReply p tag kind ⟨.unsupported, []⟩)) := by
  have hsize : frameSize (2 + body.length) = body.length + 6 := by unfold frameSize; omega
  simp only [execUnknownKind, ht, hk, kindOfCode_eq_none hnone, ne_eq, not_false_eq_true, and_self, if_true, hsize]

/-- A request that meets a waiting reply, whatever examines it (R175). -/
theorem outcome_office {i : Instr} {n : Nat} {f : Frame} {s : State} {examine : State → State} (hr : s.resetPin = false)
    (hf : s.replySlot = some f) (he : ∀ u, exec i u = .next (receive .office n u examine)) :
    exec i s =
      if s.replyPosition + (n - s.startCounted) < (frameBytes f).length then
        .next (State.dropped .office { s with replyPosition := s.replyPosition + (n - s.startCounted) })
      else exec i { s with replySlot := none, replyPosition := 0 } := by
  rw [he, he, receive_office examine hr hf]
  split <;> rfl

/-- Settles O9: the steps of the receivers and transmitters, and the byte transfers of an office request that meets a reply. -/
theorem framesBeginAndEnd : Obligations.FramesBeginAndEnd := by
  intro s hr
  have hheld (t : State) : (if s.resetPin then s else t) = t := if_neg (by simp [hr])
  refine ⟨fun l hl => ?_, fun skipped ho => ?_, fun l f rest hsent => ?_, ?_, fun p tag kind body ht hk hnone ho hc => ?_,
    fun c tag bytes f hf hrequest => ?_⟩
  · have hbegin : beginFrame (.lane l) s = s.setPort l { s.port l with receiver := .inFrame 0 } := by
      simp only [beginFrame, startPort, State.receiver, hl, clockFrame_eq]
      rfl
    exact congrArg Host.Outcome.next ((hheld _).trans hbegin)
  · have hbegin : beginFrame (.office skipped) s = { s.clockedOut (skipped + 1) with officeReceiver := .inFrame 0 } := by
      simp only [beginFrame, startPort, State.receiver, ho, startTransfers, clockFrame, clockReply_eq]
      rfl
    exact congrArg Host.Outcome.next ((hheld _).trans hbegin)
  · have hgone : frameGone l s = s.setPort l { s.port l with transmit := rest } := by rw [frameGone, hsent]; rfl
    exact congrArg Host.Outcome.next ((hheld _).trans hgone)
  · exact congrArg Host.Outcome.next (hheld _)
  · refine (execUnknownKind_unknown body s ht hk hnone).trans ?_
    rw [receive_taken _ hr ho hc, sendReply_answered]
  · rcases hrequest with ⟨k, rfl⟩ | ⟨kind, rfl, ht, hk, hnone⟩
    · obtain ⟨α, codec, fresh, block, hexact, hexec, -⟩ := isRequest_requestOf k .office tag bytes
      rw [requestSize_readBody hexact] at hexec
      exact outcome_office hr hf hexec
    · exact outcome_office hr hf fun u => execUnknownKind_unknown bytes u ht hk hnone

end Sys2Proof.Machine
end

section
/-! Power, reset and the reset values (R186). -/

namespace Sys2Proof.Machine

/-- Settles O3: every table of the reset state is one blank record, and the other blocks are written out in it. -/
theorem resetValues : Obligations.ResetValues := by
  refine ⟨fun i => replicate_get _ i, fun m => replicate_get _ m, fun c => replicate_get _ c, fun g => replicate_get _ g, fun i => ?_,
    State.reset_station, State.reset_port, State.reset_resultsOf, fun j => replicate_get _ j, rfl, rfl, rfl, rfl, rfl, rfl, rfl, rfl,
    rfl, rfl, rfl, rfl, rfl, rfl, rfl, rfl, rfl⟩
  rw [State.reset_tab]
  exact ⟨rfl, rfl, rfl, rfl, rfl, rfl, rfl, rfl, rfl, rfl, rfl, rfl, rfl, rfl, rfl⟩

/-! ### The RESET request -/

/-- A state whose lanes have notices off sends none (R180). -/
theorem composeNotices_off {fresh : Option Lane} {before s : State} (h : ∀ l, (s.port l).notices = false) :
    composeNotices fresh before s = s := by
  have hp : (composeNotices fresh before s).ports = s.ports :=
    table_ext fun l => (tableOf_get _ l).trans (if_neg (by simp [h l]))
  exact congrArg (fun x => { s with ports := x }) hp

/-- RESET leaves what a device reset leaves: no reply, and no port with notices on (R186). -/
theorem conclude_resetRequest (p : Port) (tag : Nat) (before s : State) :
    conclude p tag .reset none before (resetRequest () s) = deviceReset s :=
  composeNotices_off fun l => congrArg PortEntry.notices (State.reset_port l)

/-! ### The RESET pin held -/

/-- A step that changes nothing while the pin is held (entry 8). -/
theorem next_held {s t : State} (hr : s.resetPin = true) :
    (Host.Outcome.next (if s.resetPin then s else t) : Host.Outcome State Fault Refusal) = .next s :=
  congrArg Host.Outcome.next (if_pos hr)

theorem execUnknownKind_held {s : State} (p : Port) (tag : Nat) (k : KindAndBody) (hr : s.resetPin = true) :
    execUnknownKind p tag k s = .next s := by
  unfold execUnknownKind
  split
  · exact next_held hr
  · rfl

/-- Settles O4: the three causes of a device reset, and every other command while the pin is held. -/
theorem powerAndReset : Obligations.PowerAndReset := by
  refine ⟨fun s => rfl, fun s => rfl, fun s => rfl, fun tag s hready => ?_, fun c s hr hc => ?_⟩
  · have hpin : s.resetPin = false := (officeReady_spec hready).1
    refine (serve_office resetRequest hready rfl).trans ?_
    rw [conclude_resetRequest, deviceReset, huntAgain_resetPin, hpin, huntAgain_draws, huntAgain_pending]
    rfl
  · cases c with
    | powerOn | resetPin | resetPinAsserted => exact absurd (by simp) hc
    | unknownKind p tag k => exact execUnknownKind_held p tag k hr
    | _ => exact next_held hr

end Sys2Proof.Machine
end

section
/-! EVENTS and SET_MASK (R182, R183), SET_CLOCK and STATUS (R184, R185). -/

namespace Sys2Proof.Machine

/-! ### A request that changes its own port's entry (R182, R183) -/

/-- What a lane's request answers whose block replaces the lane's own entry: the entry with the reply, and the notice of a rise of
its pending set (R167, R180). -/
theorem conclude_ownEntry (l : Lane) (tag : Nat) (k : Kind) (s : State) (e : PortEntry) (status : Status) (body : List Field) :
    conclude (.lane l) tag k none (huntAgain (.lane l) s) (answer (s.setPort l e) status body)
      = s.setPort l (withNotice false (s.port l)
          { e with transmit := e.transmit ++ [.reply tag (kindCode k + 0x80) status body] }) := by
  have hsent : deliver (.lane l) tag (kindCode k) (answer (s.setPort l e) status body)
      = s.setPort l { e with transmit := e.transmit ++ [.reply tag (kindCode k + 0x80) status body] } := by
    simp only [deliver, answer, sendReply, sendFrame, State.setPort_setPort, State.setPort_port_self]
  have hports (e' : PortEntry) : (composeNotices none (huntAgain (.lane l) s) (s.setPort l e')).ports
      = (s.setPort l (withNotice false (s.port l) e')).ports :=
    table_ext fun j => by
      refine (composeNotices_port none (huntAgain (.lane l) s) (s.setPort l e') j).trans ?_
      refine Eq.trans ?_ (State.setPort_port s l j _).symm
      rw [State.setPort_port, withNotice_congr _ _ (s.port j) _ (huntAgain_pendingSet s _ j)]
      split
      · subst_vars; rfl
      · exact withNotice_unchanged (s.port j)
  rw [conclude, hsent]
  exact congrArg (fun x => { s with ports := x }) (hports _)

/-- The reply of a request that raises nothing, at the entry of the lane that asked. -/
theorem answered_ownEntry (l : Lane) (tag code : Nat) (s : State) (e : PortEntry) (status : Status) (body : List Field) :
    (s.setPort l e).answered (.lane l) tag code status body nobody
      = s.setPort l { e with receiver := .hunting, transmit := e.transmit ++ [.reply tag (code + 0x80) status body] } := by
  rw [← sendReply_answered]
  simp only [sendReply, sendFrame, huntAgain, State.setReceiver, State.setPort_setPort, State.setPort_port_self]

theorem anyReady_of_join {l : Lane} {tag : Nat} {s : State} (h : joinReady l tag s = true) : anyReady (.lane l) tag s = true := h

/-- A lane's request that every port may send, whose block replaces the lane's own entry. -/
theorem serve_ownEntry {α : Type} {k : Kind} {c : Codec α} {l : Lane} {tag : Nat} {fields : α} {block : α → State → Answer}
    {s : State} {e : PortEntry} {status : Status} {body : List Field} (h : joinReady l tag s = true)
    (hk : senders k = senderEveryone) (hb : block fields (huntAgain (.lane l) s) = answer (s.setPort l e) status body) :
    serve k c (.lane l) tag (.fields fields) block s
      = .next (s.setPort l (withNotice false (s.port l)
          { e with transmit := e.transmit ++ [.reply tag (kindCode k + 0x80) status body] })) := by
  obtain ⟨hr, htag, hov, hco, haw⟩ := taken_of_any (anyReady_of_join h)
  rw [serve_taken block hr hov hco htag haw (mayRequest_of_any (anyReady_of_join h) hk), hb, conclude_ownEntry]

theorem events_lane (l : Lane) (s : State) :
    events (.lane l) () (huntAgain (.lane l) s)
      = answer (s.setPort l { s.port l with events := 0, receiver := .hunting }) .ok
          [Field.events (s.port l).events, Field.events (s.port l).mask] := by
  simp only [events, huntAgain, State.setReceiver, State.setPort_setPort, State.setPort_port_self]

theorem setMask_lane (l : Lane) (n : Nat) (s : State) :
    setMask (.lane l) n (huntAgain (.lane l) s)
      = answer (s.setPort l { s.port l with mask := BitVec.ofNat 12 n, receiver := .hunting }) .ok
          [Field.events (BitVec.ofNat 12 n)] := by
  simp only [setMask, huntAgain, State.setReceiver, State.setPort_setPort, State.setPort_port_self]

/-- An empty event set makes no notice (R180). -/
theorem withNotice_noEvents {fresh : Bool} {before after : PortEntry} (h : after.events = 0) :
    withNotice fresh before after = after := if_neg (by simp [PortEntry.pendingSet, h])

/-- The notice of a port with a role whose pending set was empty and is not any more (R180). -/
theorem withNotice_rise {before after : PortEntry} (h : after.role ≠ .off) :
    withNotice false before after =
      { after with
        transmit := after.transmit
          ++ if after.notices = true ∧ before.events &&& before.mask = 0 ∧ after.events &&& after.mask ≠ 0 then
            [.notice (after.events &&& after.mask)]
          else [] } := by
  rw [withNotice_eq]
  simp only [h, ne_eq, not_false_eq_true, decide_true, Bool.and_true, Bool.false_or, Bool.and_eq_true, decide_eq_true_eq, and_assoc]
  rfl

/-- Bits 12 to 15 of a mask are stored as 0 (R183). -/
theorem maskBits_eq (n : Nat) : BitVec.ofNat 12 (n % 4096) = BitVec.ofNat 12 n := by
  apply BitVec.eq_of_toNat_eq
  simp only [BitVec.toNat_ofNat]
  omega

/-- Settles O15: the office's entry raises nothing by either request, a lane's own entry is replaced, with the notice of its rise. -/
theorem eventsAndMask : Obligations.EventsAndMask := by
  intro tag s
  refine ⟨fun l hready => ?_, fun hready => ?_, fun l n hready _ => ?_, fun n hready _ => ?_⟩
  · refine (serve_ownEntry hready rfl (events_lane l s)).trans ?_
    rw [withNotice_noEvents rfl]
    exact congrArg Host.Outcome.next
      (answered_ownEntry l tag 0x51 s { s.port l with events := 0 } .ok
        [Field.events (s.port l).events, Field.events (s.port l).mask]).symm
  · exact serve_unchanged (t := { s with officeEvents := 0 }) (officeReady_spec hready) rfl rfl rfl rfl
  · have hrole : (s.port l).role ≠ .off := by
      simp only [joinReady, Bool.and_eq_true, decide_eq_true_eq] at hready
      exact hready.2
    refine (serve_ownEntry hready rfl (setMask_lane l n s)).trans ?_
    rw [maskBits_eq, withNotice_rise]
    · rfl
    · exact hrole
  · rw [maskBits_eq]
    exact serve_unchanged (t := { s with officeMask := BitVec.ofNat 12 n }) (officeReady_spec hready) rfl rfl rfl rfl

/-! ### SET_CLOCK and STATUS (R184, R185) -/

/-- The live tickets of a station are those queued, in work and set aside (R85). -/
theorem tickets_length (x : Station) : x.tickets.length = x.queue.length + x.inWork.toList.length + x.stack.length := by
  simp only [Station.tickets, List.length_append, List.length_map]

/-- The dispatch order holds every eligible ticket once (R89, R90). -/
theorem dispatch_length (s : State) (st : StationNo) :
    (s.dispatch st).length = ((s.station st).queue.filter (s.eligible st)).length := by
  have hlow : (fun t : Ticket => decide (s.priority t.group = .low)) = fun t => !decide (s.priority t.group = .high) := by
    funext t
    cases s.priority t.group <;> rfl
  simp only [State.dispatch, bySequence, List.length_append, List.length_insertionSort, hlow]
  exact (List.length_eq_length_filter_add _).symm

/-- Settles O16: STATUS reads what hunting again does not change, and the value of SET_CLOCK has the clock's four bytes. -/
theorem clockAndStatus : Obligations.ClockAndStatus := by
  intro tag s hready
  refine ⟨fun n hn => ?_, ?_⟩
  · have hvalue : n % Config.wrap32 = n := Nat.mod_eq_of_lt hn
    refine serve_unchanged (t := { s with clock := n }) (officeReady_spec hready) rfl ?_ rfl rfl
    rw [setClock, hvalue]
    rfl
  · refine serve_unchanged (t := s) (officeReady_spec hready) rfl ?_ rfl rfl
    simp only [← tickets_length, dispatch_length]
    rfl

end Sys2Proof.Machine
end

section
/-! The two cases of a step, by the queue of waiting commands (log entry 1). -/

namespace Sys2Proof.Machine

/-- A waiting command is taken off the queue before it runs. -/
theorem step_of_pending_cons {c : Instr} {rest : List Instr} {s : State} (h : s.pending = c :: rest) :
    step s = exec c { s with pending := rest } := by
  rw [step, h]

/-- With no command waiting the part idles. -/
theorem step_of_pending_nil {s : State} (h : s.pending = []) : step s = .next s := by
  rw [step, h]

/-- Settles O1: the two cases of the queue. -/
theorem stepTakesFrontCommand : Obligations.StepTakesFrontCommand :=
  ⟨fun _ _ _ => step_of_pending_cons, fun _ => step_of_pending_nil⟩

end Sys2Proof.Machine
end
